-- ==== Sys2Proof/Word.lean ====
section
/-! DEFINITION. The word types of the 440: bytes on the wire, 16-bit fields, 32-bit values, and the
index types of ports, banks and groups (00_scope.md, Conventions). -/

namespace Sys2Proof

/-- A byte of a frame (00_scope, Conventions). -/
abbrev Byte := BitVec 8

/-- A 16-bit field: a cycle number, a logical point, a setting of two bytes. -/
abbrev Half := BitVec 16

/-- A value of the image, a 32-bit two's-complement integer; also the stored form of a descriptor and of
a map entry (00_scope, Values; R2). -/
abbrev Value := BitVec 32

/-- A port number, 0 to 3 (00_scope, Ports and indices). -/
abbrev Port := Fin 4

/-- A bank number, 0 to 3 (R1). -/
abbrev BankId := Fin 4

/-- A group's place in the group table; group number g has place g - 1 (R84: groups 1 to 63). -/
abbrev GroupId := Fin 63

/-- The group's number, 1 to 63 (R84). -/
def GroupId.num (g : GroupId) : Nat := g.val + 1

end Sys2Proof
end

