-- ==== Sys2Proof/Syntax.lean ====
section
/-! DEFINITION. The commands of the 440: one constructor per row of spec/opcode_table.json, in its order.
Request rows carry the frame as the link port hands it on (R128: TAG, OP and parameter bytes), so that ill-sized and
out-of-range parameters are commands too; the command engine answers them as R142 gives. -/

namespace Sys2Proof

/-- The five words of a slot (R2). -/
inductive WordName where
  | desc | low | high | live | staged
  deriving DecidableEq, Repr

/-- The direction of an edge at the LOAD input (R92). -/
inductive Edge where
  | rising | falling
  deriving DecidableEq, Repr

/-- The commands of the part, one per row of the opcode table. -/
inductive Instr where
  /-- DISTURBANCE (R3): an upset of one stored bit of one word of one slot. -/
  | disturbance (slot : Fin 4096) (word : WordName)
  /-- START_BIT (R122, R126): the receiver of port n detects a start bit. -/
  | startBit (n : Port)
  /-- CHARACTER_ARRIVAL (R122, R124): the last stop bit of a character is taken on RXDn. The bits are as sampled; the
parity bit is not looked at under parity NONE, and stop2 not with 1 stop bit. -/
  | characterArrival (n : Port) (data : Byte) (parityBit stop1 stop2 : Bool)
  /-- GAP_EXPIRY (R126): the gap timer of port n expires. -/
  | gapExpiry (n : Port)
  /-- LAST_BYTE_LEAVES (R132): the last stop bit of the CRC character of the response being sent leaves TXDn. -/
  | lastByteLeaves (n : Port)
  /-- RESET_LINE_LOW (R173): the falling edge of RESET. -/
  | resetLineLow
  /-- COLD_RESET (R173): the rising edge of RESET, or power-up; bit n is the level of ROLEn (R168). -/
  | coldReset (roles : BitVec 4)
  /-- LOAD_EDGE (R92): an edge at the LOAD input. -/
  | loadEdge (e : Edge)
  /-- CYCLE_TIMER_EXPIRY (R93). -/
  | cycleTimerExpiry
  /-- HOLD_TIMER_EXPIRY (R104): the hold timer of CEn expires. -/
  | holdTimerExpiry (n : Port)
  /-- SCRUB_TIMER_EXPIRY (R110). -/
  | scrubTimerExpiry
  /-- READ_COMPLETION (R38): the READ operation in flight in bank b completes. -/
  | readCompletion (b : BankId)
  /-- STAGE_COMPLETION (R41): the STAGE operation in flight in bank b completes. -/
  | stageCompletion (b : BankId)
  /-- POST_COMPLETION (R42): the POST operation in flight in bank b completes. -/
  | postCompletion (b : BankId)
  /-- DESC_READ_COMPLETION (R48): the DESC read operation in flight in bank b completes. -/
  | descReadCompletion (b : BankId)
  /-- DESC_WRITE_COMPLETION (R46): the DESC write operation in flight in bank b completes. -/
  | descWriteCompletion (b : BankId)
  /-- MAP_FILL_COMPLETION (R55): the MAP fill operation in flight in bank b completes. -/
  | mapFillCompletion (b : BankId)
  /-- MAP_READ_COMPLETION (R65): the MAP read operation in flight in bank b completes. -/
  | mapReadCompletion (b : BankId)
  /-- MAP_WRITE_COMPLETION (R60): the MAP write operation in flight in bank b completes. -/
  | mapWriteCompletion (b : BankId)
  /-- TRANSFER_COMPLETION (R99): the TRANSFER operation in flight in bank b completes. -/
  | transferCompletion (b : BankId)
  /-- SCRUB_COMPLETION (R111): the SCRUB operation in flight in bank b completes. -/
  | scrubCompletion (b : BankId)
  /-- FILL_COMPLETION (R13): the FILL operation in flight in bank b completes. -/
  | fillCompletion (b : BankId)
  /-- PROBE (R149), sent on link n; parameters: none. -/
  | probe (n : Port) (tag : Byte) (params : List Byte)
  /-- STATUS (R149), sent on link n; parameters: none. -/
  | status (n : Port) (tag : Byte) (params : List Byte)
  /-- CLEAR (R150), sent on link n; parameters: link error flags (1), event kinds (2). -/
  | clear (n : Port) (tag : Byte) (params : List Byte)
  /-- LOADED (R150), sent on link n; parameters: none. -/
  | loaded (n : Port) (tag : Byte) (params : List Byte)
  /-- READ (R144, R145), sent on link n; parameters: start (2), control (1). -/
  | read (n : Port) (tag : Byte) (params : List Byte)
  /-- READ_STAMPED (R144, R147), sent on link n; parameters: start (2), control (1). -/
  | readStamped (n : Port) (tag : Byte) (params : List Byte)
  /-- STAGE (R144, R145), sent on link n; parameters: start (2), control (1), mask (4) when MASKED, values (4 each). -/
  | stage (n : Port) (tag : Byte) (params : List Byte)
  /-- POST (R144, R145), sent on link n; parameters: start (2), control (1), mask (4) when MASKED, values (4 each). -/
  | post (n : Port) (tag : Byte) (params : List Byte)
  /-- ARM_NOW (R88): ARM with form NOW of a group; `extra` are bytes beyond the two that ARM calls for (none in a
well-sized frame, R142). -/
  | armNow (n : Port) (tag : Byte) (group : Byte) (extra : List Byte)
  /-- ARM_NEXT (R88): ARM with form NEXT of a group; `extra` as in ARM_NOW. -/
  | armNext (n : Port) (tag : Byte) (group : Byte) (extra : List Byte)
  /-- DISCARD (R89), sent on link n; parameters: group (1). -/
  | discard (n : Port) (tag : Byte) (params : List Byte)
  /-- GROUP_STATUS (R91), sent on link n; parameters: group (1). -/
  | groupStatus (n : Port) (tag : Byte) (params : List Byte)
  /-- CYCLE (R96), sent on link n; parameters: none. -/
  | cycle (n : Port) (tag : Byte) (params : List Byte)
  /-- DESC_READ (R48), sent on link n; parameters: point (2). -/
  | descRead (n : Port) (tag : Byte) (params : List Byte)
  /-- DESC_WRITE (R45), sent on link n; parameters: point (2), DESC (4), LOW (4), HIGH (4). -/
  | descWrite (n : Port) (tag : Byte) (params : List Byte)
  /-- GROUP_WRITE (R90), sent on link n; parameters: group (1), mode (1), arm set (1). -/
  | groupWrite (n : Port) (tag : Byte) (params : List Byte)
  /-- MAP_READ (R65), sent on link n; parameters: port (1), logical page (1). -/
  | mapRead (n : Port) (tag : Byte) (params : List Byte)
  /-- MAP_WRITE (R59), sent on link n; parameters: port (1), logical page (1), entry (4). -/
  | mapWrite (n : Port) (tag : Byte) (params : List Byte)
  /-- FLUSH (R64), sent on link n; parameters: port (1). -/
  | flush (n : Port) (tag : Byte) (params : List Byte)
  /-- SETTING_READ (R170), sent on link n; parameters: item (1), port (1). -/
  | settingRead (n : Port) (tag : Byte) (params : List Byte)
  /-- SETTING_WRITE_REPAIR_POLICY (R6, R171), sent on link n: the port byte and the value bytes after the item code. -/
  | settingWriteRepairPolicy (n : Port) (tag : Byte) (port : Byte) (value : List Byte)
  /-- SETTING_WRITE_SCRUB_GUARANTEE (R24, R171), sent on link n: the port byte and the value bytes after the item code. -/
  | settingWriteScrubGuarantee (n : Port) (tag : Byte) (port : Byte) (value : List Byte)
  /-- SETTING_WRITE_SCRUB_INTERVAL (R109, R171), sent on link n: the port byte and the value bytes after the item code. -/
  | settingWriteScrubInterval (n : Port) (tag : Byte) (port : Byte) (value : List Byte)
  /-- SETTING_WRITE_SCRUB_MASK (R110, R171), sent on link n: the port byte and the value bytes after the item code. -/
  | settingWriteScrubMask (n : Port) (tag : Byte) (port : Byte) (value : List Byte)
  /-- SETTING_WRITE_CYCLE_SOURCE (R92, R171), sent on link n: the port byte and the value bytes after the item code. -/
  | settingWriteCycleSource (n : Port) (tag : Byte) (port : Byte) (value : List Byte)
  /-- SETTING_WRITE_CYCLE_PERIOD (R93, R171), sent on link n: the port byte and the value bytes after the item code. -/
  | settingWriteCyclePeriod (n : Port) (tag : Byte) (port : Byte) (value : List Byte)
  /-- SETTING_WRITE_POOL_LOW_THRESHOLD (R79, R171), sent on link n: the port byte and the value bytes after the item code. -/
  | settingWritePoolLowThreshold (n : Port) (tag : Byte) (port : Byte) (value : List Byte)
  /-- SETTING_WRITE_VIEW_SIZE (R63, R171), sent on link n: the port byte and the value bytes after the item code. -/
  | settingWriteViewSize (n : Port) (tag : Byte) (port : Byte) (value : List Byte)
  /-- SETTING_WRITE_PARITY (R130, R171), sent on link n: the port byte and the value bytes after the item code. -/
  | settingWriteParity (n : Port) (tag : Byte) (port : Byte) (value : List Byte)
  /-- SETTING_WRITE_STOP_BITS (R130, R171), sent on link n: the port byte and the value bytes after the item code. -/
  | settingWriteStopBits (n : Port) (tag : Byte) (port : Byte) (value : List Byte)
  /-- SETTING_WRITE_RATE_DIVISOR (R130, R171), sent on link n: the port byte and the value bytes after the item code. -/
  | settingWriteRateDivisor (n : Port) (tag : Byte) (port : Byte) (value : List Byte)
  /-- SETTING_WRITE_GAP_COUNT (R130, R171), sent on link n: the port byte and the value bytes after the item code. -/
  | settingWriteGapCount (n : Port) (tag : Byte) (port : Byte) (value : List Byte)
  /-- SETTING_WRITE_CRC_ENFORCEMENT (R130, R171), sent on link n: the port byte and the value bytes after the item code (value, then its complement). -/
  | settingWriteCrcEnforcement (n : Port) (tag : Byte) (port : Byte) (value : List Byte)
  /-- SETTING_WRITE_LINK_ENABLE (R135, R171), sent on link n: the port byte and the value bytes after the item code. -/
  | settingWriteLinkEnable (n : Port) (tag : Byte) (port : Byte) (value : List Byte)
  /-- SETTING_WRITE_WATCH_SET (R160, R171), sent on link n: the port byte and the value bytes after the item code. -/
  | settingWriteWatchSet (n : Port) (tag : Byte) (port : Byte) (value : List Byte)
  /-- SETTING_WRITE_HOLD_LIMIT (R102, R171), sent on link n: the port byte and the value bytes after the item code. -/
  | settingWriteHoldLimit (n : Port) (tag : Byte) (port : Byte) (value : List Byte)
  /-- SETTING_WRITE_HOLD_ACTION (R104, R171), sent on link n: the port byte and the value bytes after the item code. -/
  | settingWriteHoldAction (n : Port) (tag : Byte) (port : Byte) (value : List Byte)
  /-- SETTING_WRITE_LEVEL (R162, R171): the level of one event kind, item 30h + kind. -/
  | settingWriteLevel (n : Port) (tag : Byte) (kind : Fin 11) (port : Byte) (value : List Byte)
  /-- LOG_READ (R119), sent on link n; parameters: none. -/
  | logRead (n : Port) (tag : Byte) (params : List Byte)
  /-- LOG_CLEAR (R120), sent on link n; parameters: none. -/
  | logClear (n : Port) (tag : Byte) (params : List Byte)
  /-- RESET_WARM (R154): RESET with scope 10h, sent on link n; `rest` is the complement byte. -/
  | resetWarm (n : Port) (tag : Byte) (rest : List Byte)
  /-- RESET_PORT (R154): RESET with a scope other than 10h (00h to 03h name a port); `rest` is the complement byte. -/
  | resetPort (n : Port) (tag : Byte) (scope : Byte) (rest : List Byte)
  /-- LINE_RETURN_HIGH (R122): RXDn returns high after being held low or after a dropped character. -/
  | lineReturnHigh (n : Port)
  /-- UNKNOWN_OP (R141): a frame whose OP is none of the codes of 9.4. -/
  | unknownOp (n : Port) (tag : Byte) (op : Byte) (params : List Byte)
  deriving DecidableEq, Repr

end Sys2Proof
end

