-- ==== Sys2Proof/WellFormed.lean ====
section
/-! DEFINITION. Which commands are well formed: what their operand types do not say already. A request frame holds
LEN, 2 to 80, bytes of TAG, OP and parameters (R124); UNKNOWN_OP carries a code that 9.4 does not list (R141); RESET_PORT
carries a scope other than WARM's (13.3). -/

namespace Sys2Proof

/-- The largest LEN of a request frame (R124, 13.1). -/
def maxRequestLen : Nat := 80

/-- The request codes of 9.4. -/
def requestCodes : List Byte :=
  [0x01, 0x02, 0x03, 0x04, 0x10, 0x11, 0x12, 0x13, 0x20, 0x21, 0x22, 0x23, 0x30, 0x31, 0x32, 0x38, 0x39, 0x3A,
   0x40, 0x41, 0x42, 0x43, 0x4F]

/-- Parameter bytes fit a frame when TAG, OP and they are at most 80 bytes (R124). -/
def paramsFit (params : List Byte) : Bool := decide (params.length + 2 ≤ maxRequestLen)

/-- The well-formedness of a command, constructor by constructor. -/
def Instr.wf : Instr → Bool
  | .disturbance _ _ => true
  | .startBit _ => true
  | .characterArrival _ _ _ _ _ => true
  | .gapExpiry _ => true
  | .lastByteLeaves _ => true
  | .resetLineLow => true
  | .coldReset _ => true
  | .loadEdge _ => true
  | .cycleTimerExpiry => true
  | .holdTimerExpiry _ => true
  | .scrubTimerExpiry => true
  | .readCompletion _ => true
  | .stageCompletion _ => true
  | .postCompletion _ => true
  | .descReadCompletion _ => true
  | .descWriteCompletion _ => true
  | .mapFillCompletion _ => true
  | .mapReadCompletion _ => true
  | .mapWriteCompletion _ => true
  | .transferCompletion _ => true
  | .scrubCompletion _ => true
  | .fillCompletion _ => true
  | .probe _ _ ps => paramsFit ps
  | .status _ _ ps => paramsFit ps
  | .clear _ _ ps => paramsFit ps
  | .loaded _ _ ps => paramsFit ps
  | .read _ _ ps => paramsFit ps
  | .readStamped _ _ ps => paramsFit ps
  | .stage _ _ ps => paramsFit ps
  | .post _ _ ps => paramsFit ps
  | .armNow _ _ _ extra => paramsFit (0 :: 0 :: extra)
  | .armNext _ _ _ extra => paramsFit (0 :: 0 :: extra)
  | .discard _ _ ps => paramsFit ps
  | .groupStatus _ _ ps => paramsFit ps
  | .cycle _ _ ps => paramsFit ps
  | .descRead _ _ ps => paramsFit ps
  | .descWrite _ _ ps => paramsFit ps
  | .groupWrite _ _ ps => paramsFit ps
  | .mapRead _ _ ps => paramsFit ps
  | .mapWrite _ _ ps => paramsFit ps
  | .flush _ _ ps => paramsFit ps
  | .settingRead _ _ ps => paramsFit ps
  | .settingWriteRepairPolicy _ _ _ v => paramsFit (0 :: 0 :: v)
  | .settingWriteScrubGuarantee _ _ _ v => paramsFit (0 :: 0 :: v)
  | .settingWriteScrubInterval _ _ _ v => paramsFit (0 :: 0 :: v)
  | .settingWriteScrubMask _ _ _ v => paramsFit (0 :: 0 :: v)
  | .settingWriteCycleSource _ _ _ v => paramsFit (0 :: 0 :: v)
  | .settingWriteCyclePeriod _ _ _ v => paramsFit (0 :: 0 :: v)
  | .settingWritePoolLowThreshold _ _ _ v => paramsFit (0 :: 0 :: v)
  | .settingWriteViewSize _ _ _ v => paramsFit (0 :: 0 :: v)
  | .settingWriteParity _ _ _ v => paramsFit (0 :: 0 :: v)
  | .settingWriteStopBits _ _ _ v => paramsFit (0 :: 0 :: v)
  | .settingWriteRateDivisor _ _ _ v => paramsFit (0 :: 0 :: v)
  | .settingWriteGapCount _ _ _ v => paramsFit (0 :: 0 :: v)
  | .settingWriteCrcEnforcement _ _ _ v => paramsFit (0 :: 0 :: v)
  | .settingWriteLinkEnable _ _ _ v => paramsFit (0 :: 0 :: v)
  | .settingWriteWatchSet _ _ _ v => paramsFit (0 :: 0 :: v)
  | .settingWriteHoldLimit _ _ _ v => paramsFit (0 :: 0 :: v)
  | .settingWriteHoldAction _ _ _ v => paramsFit (0 :: 0 :: v)
  | .settingWriteLevel _ _ _ _ v => paramsFit (0 :: 0 :: v)
  | .logRead _ _ ps => paramsFit ps
  | .logClear _ _ ps => paramsFit ps
  | .resetWarm _ _ rest => paramsFit (0 :: rest)
  | .resetPort _ _ scope rest => decide (scope ≠ 0x10) && paramsFit (0 :: rest)
  | .lineReturnHigh _ => true
  | .unknownOp _ _ op ps => decide (op ∉ requestCodes) && paramsFit ps

end Sys2Proof
end

