-- ==== Sys2Proof/Config.lean ====
section
/-! DEFINITION. What is fixed for the part (its identity, R149) and the one free value of the model. -/

namespace Sys2Proof

/-- Vendor code returned by PROBE (R149). -/
def Config.vendor : Byte := 0xB6

/-- Part code returned by PROBE, 0440h (R149). -/
def Config.part : Half := 0x0440

/-- Revision returned by PROBE (R149). -/
def Config.revision : Byte := 0x01

/-- FREE VALUE (log 7). R20: two requests can arrive at an IDLE bank at the same moment, and either may
arrive first. Applied to the counter `State.arrivals`, it picks which of them is first. It has no body. -/
opaque Config.arrivalPick : Nat → Nat

end Sys2Proof
end

