-- ==== Sys2Proof/Machine/State.lean ====
section
/-! DEFINITION. The state of the 440 as plain data, the reasons a step can stop, and the state after reset.
INVENTORY.md lists every piece with its rule. -/

namespace Sys2Proof.Machine

/-! ## The point store (R1 to R5) -/

/-- A stored word by its condition (R3, R5): CLEAN, CORRECTABLE with the true value it still yields, or
UNCORRECTABLE, which has no value any longer. -/
inductive Stored where
  | clean (v : Value)
  | correctable (v : Value)
  | uncorrectable
  deriving DecidableEq, Repr

/-- The store: (word address, stored word), word address = 5 x slot + word, addresses rising, no entry equal to the
fill's word (log 5, log 22). -/
abbrev Store := List (Nat × Stored)

/-! ## Banks and arbiters (R7, R12, R19 to R21) -/

/-- Who asks for a bank operation (R19); also the source of a finding (R8). -/
inductive Requester where
  | ce (n : Port)
  | load
  | scrub
  deriving DecidableEq, Repr

/-- The kind of a bank operation with its parameters (R7, R8). A fill `inserts` unless, while it was in flight, its port's view
size was written at or below its page (R56, R63; log 14). -/
inductive Act where
  | read (prefer : Bool)
  | stage (v : Value) (mask : Option Value)
  | post (v : Value) (mask : Option Value)
  | descRead
  | descWrite (desc low high : Value)
  | mapFill (page : Nat) (inserts : Bool)
  | mapRead
  | mapWrite (target : Port) (page : Nat) (entry : Value)
  | transfer
  | scrub
  deriving DecidableEq, Repr

/-- A bank operation (R7). `dropped`: a port reset of its engine has come while it was in flight, so its result is
dropped (R17; log 14). -/
structure BankOp where
  who : Requester
  slot : Nat
  act : Act
  dropped : Bool
  deriving DecidableEq, Repr

/-- The state of a bank (R12). -/
inductive Phase where
  | init
  | idle
  | busy (op : BankOp)
  deriving DecidableEq, Repr

/-- A bank with its arbiter: state, waiting requests in order of arrival, last-granted port, wait count (R21), and the
fill position (R13: the next row to fill, 1024 when the fill has ended). -/
structure Bank where
  phase : Phase
  waiting : List BankOp
  lastGranted : Port
  waitCount : Nat
  fillRow : Nat
  deriving DecidableEq, Repr

/-! ## The load engine (R67 to R107) -/

/-- A pool entry in use, on the list of its group (R67). -/
structure StageEntry where
  entry : Nat
  point : Nat
  stager : Port
  deriving DecidableEq, Repr

/-- Group mode (R86). -/
inductive GroupMode where
  | manual | cyclic
  deriving DecidableEq, Repr

/-- Group state (R85). -/
inductive GroupState where
  | empty | staging | armed | queued | loading
  deriving DecidableEq, Repr

/-- A last-load record (R84, R100); COMPLETE exactly when no point was skipped. -/
structure LastLoad where
  cycle : Half
  partialLoad : Bool
  transferred : Nat
  skipped : Nat
  firstSkipped : Option Nat
  deriving DecidableEq, Repr

/-- A group record (R84). The staged count is the length of the list. -/
structure GroupRec where
  mode : GroupMode
  armSet : BitVec 4
  state : GroupState
  list : List StageEntry
  lastLoad : Option LastLoad
  deriving DecidableEq, Repr

/-- What the load engine keeps of the load it performs (R98, R99): the cycle number at the start and the running counts. -/
structure LoadRun where
  cycle : Half
  transferred : Nat
  skipped : Nat
  firstSkipped : Option Nat
  deriving DecidableEq, Repr

/-! ## Error log, settings, start record -/

/-- An entry of the error log (R114). -/
structure LogEntry where
  slot : Nat
  word : WordName
  source : Requester
  deriving DecidableEq, Repr

/-- The error log (R114). -/
structure ErrorLog where
  corrected : Option LogEntry
  uncorrectable : Option LogEntry
  updated : Bool
  deriving DecidableEq, Repr

/-- Repair policy (R6). -/
inductive RepairPolicy where
  | onAccess | scrubOnly
  deriving DecidableEq, Repr

/-- Cycle source (R92). -/
inductive CycleSource where
  | request | lineRise | lineFall | timer
  deriving DecidableEq, Repr

/-- The device items of 11.2. -/
structure DeviceSettings where
  repair : RepairPolicy
  guarantee : Byte
  scrubInterval : Half
  scrubMask : Half
  source : CycleSource
  period : Half
  poolLow : Half
  deriving DecidableEq, Repr

/-- The cause of the start record (R176). -/
inductive StartCause where
  | cold | warm
  deriving DecidableEq, Repr

/-- A present torn field (R107). -/
structure Torn where
  group : GroupId
  transferred : Nat
  untransferred : Nat
  deriving DecidableEq, Repr

/-! ## Ports (R49, R53, R121 to R139, R157 to R162) -/

/-- Parity setting (R121). -/
inductive Parity where
  | none | even | odd
  deriving DecidableEq, Repr

/-- The per-port items of 11.2, supervisor items first, then own-port items. -/
structure PortSettings where
  viewSize : Byte
  parity : Parity
  twoStops : Bool
  divisor : Byte
  gapCount : Byte
  crcOn : Bool
  linkOn : Bool
  watch : BitVec 64
  holdLimit : Byte
  holdWaits : Bool
  levels : Vector (Fin 8) 11
  deriving DecidableEq, Repr

/-- The receiver (R122): looking for a start bit, taking a character, or waiting for RXD to return high. -/
inductive Receiver where
  | looking | taking | waitHigh
  deriving DecidableEq, Repr

/-- The frame assembler with its frame buffer (R124): in BODY `left` bytes remain to collect and `got` holds LEN's
body bytes so far; in CHECK `got` holds them all. -/
inductive Assembler where
  | hunt
  | length
  | body (len : Byte) (left : Nat) (got : List Byte)
  | check (len : Byte) (got : List Byte)
  deriving DecidableEq, Repr

/-- The line settings under which a frame is sent (R132). -/
structure CharForm where
  parity : Parity
  twoStops : Bool
  divisor : Byte
  deriving DecidableEq, Repr

/-- A response frame as CEn writes it (R140): TAG, frame status, summary byte and body. -/
structure Response where
  tag : Byte
  status : Byte
  summary : Byte
  body : List Byte
  deriving DecidableEq, Repr

/-- A response buffer (R131). -/
inductive Buffer where
  | free
  | reserved
  | filled (r : Response)
  | sending (r : Response) (form : CharForm)
  deriving DecidableEq, Repr

/-- One of the two response buffers. -/
inductive BufId where
  | zero | one
  deriving DecidableEq, Repr

/-- One point's access in a run, with its own operands (R144, R145). -/
inductive PointAccess where
  | read (prefer : Bool)
  | stage (v : Value) (mask : Option Value)
  | post (v : Value) (mask : Option Value)
  deriving DecidableEq, Repr

/-- The layout of a run's records (R146). -/
inductive RecordShape where
  | read | stamped | status
  deriving DecidableEq, Repr

/-- A point run in execution (R144 to R146): the point CEn is at, the accesses of that point and of the later ones, the
records gathered so far, and the CORRECTED flag gathered for the point in hand. -/
structure PointRun where
  tag : Byte
  shape : RecordShape
  down : Bool
  point : Half
  todo : List PointAccess
  records : List Byte
  corrected : Bool
  deriving DecidableEq, Repr

/-- What CEn waits for while it is WAITING (R138): the fill of a translation, a point access, or the one operation of a
descriptor or map request. -/
inductive Awaited where
  | fill (run : PointRun) (page : Nat)
  | access (run : PointRun) (slot : Nat)
  | single (tag : Byte)
  deriving DecidableEq, Repr

/-- What CEn keeps while it is HOLDING (R102): the run, the group, the slot, the last-load cycle read when the hold
began, and the hold timer (none: it has expired under WAIT). -/
structure Hold where
  run : PointRun
  group : GroupId
  slot : Nat
  cycle : Half
  timer : Option Nat
  deriving DecidableEq, Repr

/-- The scope of a RESET (R154). -/
inductive ResetScope where
  | warm
  | port (m : Port)
  deriving DecidableEq, Repr

/-- The state of a command engine (R138). RESET_WAIT keeps the buffer of the RESET's response. -/
inductive Engine where
  | idle
  | waiting (x : Awaited)
  | holding (h : Hold)
  | resetWait (buf : BufId) (scope : ResetScope)
  deriving DecidableEq, Repr

/-- An entry of a translation cache (R53): logical page, physical page, rights (bit 0 R, bit 1 S, bit 2 P). -/
structure CacheEntry where
  logical : Nat
  page : Byte
  rights : BitVec 3
  deriving DecidableEq, Repr

/-- All that belongs to one port: link port, command engine, event state, settings, role. -/
structure PortState where
  supervisor : Bool
  cfg : PortSettings
  rx : Receiver
  asm : Assembler
  gapTimer : Option Nat
  queue : List (List Byte)
  buf0 : Buffer
  buf1 : Buffer
  linkErrors : BitVec 6
  ce : Engine
  cache : List CacheEntry
  sticky : BitVec 11
  loaded : BitVec 64
  deriving DecidableEq, Repr

/-! ## The whole -/

/-- The state of the 440; `heldBack` holds the requests that wait to be placed until an earlier operation of their requester
completes (R19; log 20). Besides, the free value's counter `arrivals`, and the commands waiting, first in first out. -/
structure State where
  store : Store
  banks : Vector Bank 4
  heldBack : List BankOp
  freeList : List Nat
  groups : Vector GroupRec 63
  loadQueue : List GroupId
  engine : Option GroupId
  load : LoadRun
  cycleNumber : Half
  cycleTimer : Option Nat
  patrol : Nat
  scrubTimer : Option Nat
  log : ErrorLog
  dev : DeviceSettings
  startCause : StartCause
  torn : Option Torn
  resetLow : Bool
  ports : Vector PortState 4
  arrivals : Nat
  pending : List Instr
  deriving DecidableEq, Repr

/-- The reasons a step can stop with a fault. -/
inductive Fault where
  /-- Raised by READ_COMPLETION, STAGE_COMPLETION and POST_COMPLETION when the DESC word of the slot yields a value whose
  codes the layout of 13.4 does not define (R178). The checks of R45 and the fill never leave one (R31), so no run from
  reset reaches it. Safe: the model stops where the spec defines nothing (log 9). -/
  | undefinedDescriptor (slot : Nat)
  deriving DecidableEq, Repr

/-- The reasons a step can refuse a command. -/
inductive Refusal where
  /-- A command with no meaning yet. Raised by `exec` alone. Safe. -/
  | notModelled (mnemonic : String)
  /-- Raised by every request row whose TAG, OP and parameters are more than 80 bytes: no frame of 13.1 holds them, so the
  command is no request of the part (R124; log 10). Safe: nothing is said of such a command. -/
  | frameTooLong
  deriving DecidableEq, Repr

/-! ## Cold values (the "Cold default" columns of the chapters) -/

/-- A bank at cold reset: INIT from row 0, arbiter in its cold state (R12, R13, R21, R28). -/
def Bank.cold : Bank :=
  { phase := .init, waiting := [], lastGranted := 3, waitCount := 0, fillRow := 0 }

/-- A group record at cold reset (R84). -/
def GroupRec.cold : GroupRec :=
  { mode := .manual, armSet := 0xF, state := .empty, list := [], lastLoad := none }

/-- The free list with every entry free (R67). -/
def allEntries : List Nat := List.range 512

/-- The load registers at cold reset (R98; the recorded cycle number is the model's choice, log 12). -/
def LoadRun.cold : LoadRun :=
  { cycle := 0, transferred := 0, skipped := 0, firstSkipped := none }

/-- The device items at cold reset (11.2). -/
def DeviceSettings.cold : DeviceSettings :=
  { repair := .onAccess, guarantee := 4, scrubInterval := 64, scrubMask := 0, source := .request, period := 1000,
    poolLow := 32 }

/-- The per-port items at cold reset (11.2). -/
def PortSettings.cold : PortSettings :=
  { viewSize := 0, parity := .none, twoStops := false, divisor := 19, gapCount := 40, crcOn := true, linkOn := true,
    watch := 0, holdLimit := 50, holdWaits := false, levels := Vector.replicate 11 0 }

/-- A port at cold reset, with the role its strap gives: HUNT, queue and buffers empty, flags clear (R137), engine IDLE
(R138), cache empty (R53), and START, bit 0, alone pending (R165). -/
def PortState.cold (supervisor : Bool) : PortState :=
  { supervisor := supervisor, cfg := PortSettings.cold, rx := .looking, asm := .hunt, gapTimer := none, queue := [],
    buf0 := .free, buf1 := .free, linkErrors := 0, ce := .idle, cache := [], sticky := 1, loaded := 0 }

/-- The part right after the power-up cold reset: the fill of every bank begins, nothing listed in the store (log 5), all
ROLE pins low (log 6), no command waiting. -/
def State.reset : State :=
  { store := [], banks := Vector.replicate 4 Bank.cold, heldBack := [], freeList := allEntries,
    groups := Vector.replicate 63 GroupRec.cold, loadQueue := [], engine := none, load := LoadRun.cold, cycleNumber := 0,
    cycleTimer := none, patrol := 0, scrubTimer := none,
    log := { corrected := none, uncorrectable := none, updated := false }, dev := DeviceSettings.cold,
    startCause := .cold, torn := none, resetLow := false, ports := Vector.replicate 4 (PortState.cold false), arrivals := 0,
    pending := [] }

end Sys2Proof.Machine
end

