-- ==== Sys2Proof/Machine/Ops.lean ====
section
/-! DEFINITION. The named operations over the parts of State: ports, banks, groups, and the words of the point store
(R1 to R6). Every other file reads and writes State through them. -/

namespace Sys2Proof.Machine

/-! ## Parts -/

/-- Every element of a vector changed by one function. -/
def mapAll {α β : Type} {k : Nat} (f : α → β) (v : Vector α k) : Vector β k :=
  ⟨⟨v.toList.map f⟩, by simp⟩

/-- Port n's state. -/
def State.port (s : State) (n : Port) : PortState := s.ports[n]

/-- Replace port n's state. -/
def State.setPort (s : State) (n : Port) (p : PortState) : State := { s with ports := s.ports.set n p }

/-- Change port n's state. -/
def State.updPort (s : State) (n : Port) (f : PortState → PortState) : State := s.setPort n (f (s.port n))

/-- Change every port's state by one function. -/
def State.updAllPorts (s : State) (f : PortState → PortState) : State := { s with ports := mapAll f s.ports }

/-- Bank b with its arbiter. -/
def State.bank (s : State) (b : BankId) : Bank := s.banks[b]

/-- Replace bank b. -/
def State.setBank (s : State) (b : BankId) (x : Bank) : State := { s with banks := s.banks.set b x }

/-- Change bank b. -/
def State.updBank (s : State) (b : BankId) (f : Bank → Bank) : State := s.setBank b (f (s.bank b))

/-- Change every bank by one function. -/
def State.updAllBanks (s : State) (f : Bank → Bank) : State := { s with banks := mapAll f s.banks }

/-- Group g's record. -/
def State.group (s : State) (g : GroupId) : GroupRec := s.groups[g]

/-- Replace group g's record. -/
def State.setGroup (s : State) (g : GroupId) (r : GroupRec) : State := { s with groups := s.groups.set g r }

/-- Change group g's record. -/
def State.updGroup (s : State) (g : GroupId) (f : GroupRec → GroupRec) : State := s.setGroup g (f (s.group g))

/-- The 63 groups in ascending number. -/
def allGroups : List GroupId := List.finRange 63

/-- The four ports in ascending number. -/
def allPorts : List Port := [0, 1, 2, 3]

/-! ## Words of the store -/

/-- The place of a word within its slot, which is also its order among findings (R10). -/
def wordIndex : WordName → Nat
  | .desc => 0
  | .low => 1
  | .high => 2
  | .live => 3
  | .staged => 4

/-- The words of a slot in the order of R10. -/
def slotWords : List WordName := [.desc, .low, .high, .live, .staged]

/-- The address of a word: 5 x slot + place. -/
def wordAddr (slot : Nat) (w : WordName) : Nat := 5 * slot + wordIndex w

/-- What an address with no entry reads as: the fill's word, CLEAN 0 (R2; log 5). -/
def fillWord : Stored := .clean 0

/-- The stored word at an address. -/
def storeRead : Store → Nat → Stored
  | [], _ => fillWord
  | (k, x) :: m, a => if k = a then x else storeRead m a

/-- Put a stored word at an address, keeping addresses rising and no entry equal to the fill's word. -/
def storeWrite : Store → Nat → Stored → Store
  | [], a, x => if x = fillWord then [] else [(a, x)]
  | (k, y) :: m, a, x =>
    if a < k then (if x = fillWord then (k, y) :: m else (a, x) :: (k, y) :: m)
    else if a = k then (if x = fillWord then m else (a, x) :: m)
    else (k, y) :: storeWrite m a x

/-- The canonical form of the store: addresses strictly rising, no entry equal to the fill's word. -/
def Store.wf : Store → Bool
  | [] => true
  | [(_, x)] => x != fillWord
  | (k, x) :: (k', x') :: m => x != fillWord && decide (k < k') && Store.wf ((k', x') :: m)

/-- A word of a slot, with its condition. -/
def State.word (s : State) (slot : Nat) (w : WordName) : Stored := storeRead s.store (wordAddr slot w)

/-- Put a word of a slot, with its condition. -/
def State.putWord (s : State) (slot : Nat) (w : WordName) (x : Stored) : State :=
  { s with store := storeWrite s.store (wordAddr slot w) x }

/-- Write a word: the whole word, CLEAN with the new value whatever its condition was (R4). -/
def State.writeWord (s : State) (slot : Nat) (w : WordName) (v : Value) : State := s.putWord slot w (.clean v)

/-- What a read of a word yields (R5): its value, its true value, or none. -/
def Stored.yield : Stored → Option Value
  | .clean v => some v
  | .correctable v => some v
  | .uncorrectable => none

/-- The word is CORRECTABLE. -/
def Stored.isCorrectable : Stored → Bool
  | .correctable _ => true
  | _ => false

/-- A disturbance worsens the condition by one step; CORRECTABLE keeps the true value, UNCORRECTABLE loses it (R3). -/
def Stored.disturbed : Stored → Stored
  | .clean v => .correctable v
  | .correctable _ => .uncorrectable
  | .uncorrectable => .uncorrectable

/-- A word after its repair: a CORRECTABLE word CLEAN with its true value, any other as it was (R6, R111). -/
def Stored.repaired : Stored → Stored
  | .correctable v => .clean v
  | x => x

/-- Write back a CORRECTABLE word with its true value, CLEAN; leave any other word (R6, R111). A word written in its own
right before is CLEAN, so it is left (R6). -/
def State.repairWord (slot : Nat) (s : State) (w : WordName) : State :=
  match s.word slot w with
  | .correctable v => s.writeWord slot w v
  | _ => s

/-- Write back every CORRECTABLE word of a list (a SCRUB, under either policy; R6, R111). -/
def State.repairWords (s : State) (slot : Nat) (ws : List WordName) : State := ws.foldl (State.repairWord slot) s

/-- The repair write-backs of an operation other than a SCRUB: under ON_ACCESS alone (R6), by the policy in force at the
completion. -/
def State.repairOnAccess (s : State) (slot : Nat) (ws : List WordName) : State :=
  match s.dev.repair with
  | .onAccess => s.repairWords slot ws
  | .scrubOnly => s

/-- Any word of the list was found CORRECTABLE (R5: the CORRECTED flag). -/
def State.anyCorrectable (s : State) (slot : Nat) (ws : List WordName) : Bool :=
  ws.any (fun w => (s.word slot w).isCorrectable)

/-- The bank that holds a slot (R1). -/
def bankOf (slot : Nat) : BankId := ⟨slot % 4, Nat.mod_lt slot (by decide)⟩

/-- The map slot of port n and logical page l (R1, R50). -/
def mapSlot (n : Port) (l : Nat) : Nat := 3840 + 64 * n.val + l

/-- The 440 is ready: all four banks have left INIT (R14). -/
def State.ready (s : State) : Bool :=
  (s.bank 0).phase != .init && (s.bank 1).phase != .init && (s.bank 2).phase != .init && (s.bank 3).phase != .init

/-- The operation in flight in bank b, unless the RESET line holds the part stopped (R12, R173). -/
def State.inFlight (s : State) (b : BankId) : Option BankOp :=
  if s.resetLow then none else
  match (s.bank b).phase with
  | .busy op => some op
  | _ => none

end Sys2Proof.Machine
end

