-- ==== Sys2Proof/Machine/Operands.lean ====
section
/-! DEFINITION. Operand forms: the layouts of chapter 13 and of the settings table of 11.2, read and written. Multi-byte
fields are most significant byte first; bit 0 is the least significant (00_scope, Conventions). -/

namespace Sys2Proof.Machine

/-! ## Bytes -/

/-- Two bytes, most significant first, as a 16-bit field. -/
def half (hi lo : Byte) : Half := hi ++ lo

/-- Four bytes, most significant first, as a 32-bit field. -/
def value32 (a b c d : Byte) : Value := a ++ b ++ c ++ d

/-- A 16-bit field as sent. -/
def halfBytes (h : Half) : List Byte := [h.extractLsb' 8 8, h.extractLsb' 0 8]

/-- A count sent in two bytes. -/
def natBytes2 (k : Nat) : List Byte := halfBytes (BitVec.ofNat 16 k)

/-- A 32-bit field as sent. -/
def valueBytes (v : Value) : List Byte :=
  [v.extractLsb' 24 8, v.extractLsb' 16 8, v.extractLsb' 8 8, v.extractLsb' 0 8]

/-- A 64-bit field as sent (the watch set). -/
def bytes64 (v : BitVec 64) : List Byte :=
  [v.extractLsb' 56 8, v.extractLsb' 48 8, v.extractLsb' 40 8, v.extractLsb' 32 8, v.extractLsb' 24 8, v.extractLsb' 16 8,
   v.extractLsb' 8 8, v.extractLsb' 0 8]

/-- A flag sent in one byte. -/
def flagByte (b : Bool) : Byte := if b then 1 else 0

/-- The values of a STAGE or POST run, four bytes each. -/
def values32 : List Byte → List Value
  | a :: b :: c :: d :: t => value32 a b c d :: values32 t
  | _ => []

/-- The group that a byte names, 1 to 63 (R84). -/
def groupOfNat (k : Nat) : Option GroupId := if h : 1 ≤ k ∧ k ≤ 63 then some ⟨k - 1, by omega⟩ else none

/-- The port that a byte names, 0 to 3. -/
def portOfByte (b : Byte) : Option Port := if h : b.toNat < 4 then some ⟨b.toNat, h⟩ else none

/-! ## Status codes (13.2) -/

/-- Frame statuses. -/
inductive FrameStatus where
  | ok | notReady | badOp | badParam | role | busy | empty | pairFail | range | fault | denied
  deriving DecidableEq, Repr

/-- The code of a frame status (13.2). -/
def frameCode : FrameStatus → Byte
  | .ok => 0
  | .notReady => 1
  | .badOp => 2
  | .badParam => 3
  | .role => 4
  | .busy => 5
  | .empty => 6
  | .pairFail => 7
  | .range => 8
  | .fault => 9
  | .denied => 10

/-- Point statuses. -/
inductive PointStatus where
  | ok | clamped | poisoned | fault | vacant | unmapped | mapFault | denied | range | busy | poolFull | expired
  deriving DecidableEq, Repr

/-- The code of a point status (13.2). -/
def pointCode : PointStatus → Byte
  | .ok => 0
  | .clamped => 1
  | .poisoned => 2
  | .fault => 3
  | .vacant => 4
  | .unmapped => 5
  | .mapFault => 6
  | .denied => 7
  | .range => 8
  | .busy => 9
  | .poolFull => 10
  | .expired => 11

/-- The point status byte: code in bits 0-3, CORRECTED in bit 4, FROM_STAGED in bit 5 (13.2). -/
def statusByte (st : PointStatus) (corrected fromStaged : Bool) : Byte :=
  pointCode st ||| (if corrected then 0x10 else 0) ||| (if fromStaged then 0x20 else 0)

/-- The filler of a value field for which no value was obtained (R37, R177). -/
def noValue : Value := 0xFFFFFFFF

/-- The filler of a cycle field for which no record exists (R147, R177). -/
def noCycle : Half := 0xFFFF

/-! ## Point-run control (R144, 13.2) -/

/-- The control byte of a run. -/
structure RunControl where
  count : Nat
  down : Bool
  masked : Bool
  prefer : Bool
  deriving DecidableEq, Repr

/-- Read a control byte; bit 7 must be 0 (13.2, R178). -/
def decodeControl (c : Byte) : Option RunControl :=
  if c.getLsbD 7 then none
  else some { count := (c.extractLsb' 0 4).toNat + 1, down := c.getLsbD 4, masked := c.getLsbD 5, prefer := c.getLsbD 6 }

/-! ## Descriptor words (R31, 13.4) -/

/-- A point's kind, with the group of a SETPOINT (R31: 1 to 63 on a SETPOINT, 0 on every other kind). -/
inductive PointKind where
  | unused
  | reading
  | setpoint (g : GroupId)
  | constant
  deriving DecidableEq, Repr

/-- Limit policy (R34). -/
inductive LimitPolicy where
  | none | refuse | clamp
  deriving DecidableEq, Repr

/-- The fields of a DESC word (R31). -/
structure Descriptor where
  kind : PointKind
  writers : BitVec 4
  policy : LimitPolicy
  deriving DecidableEq, Repr

/-- Bits 0-1, the kind's code. -/
def descKindBits (v : Value) : BitVec 2 := v.extractLsb' 0 2

/-- Bits 4-7, the writer set: bit n for LPn. -/
def descWriters (v : Value) : BitVec 4 := v.extractLsb' 4 4

/-- Bits 8-15, the group. -/
def descGroup (v : Value) : Nat := (v.extractLsb' 8 8).toNat

/-- Bits 16-17, the policy's code. -/
def descPolicyBits (v : Value) : BitVec 2 := v.extractLsb' 16 2

/-- Bits 2-3 and 18-31, which no field uses, are 0. -/
def descReservedClear (v : Value) : Bool := v.extractLsb' 2 2 == 0 && v.extractLsb' 18 14 == 0

/-- The kind named by a descriptor word: SETPOINT with a group of 1 to 63, every other kind with group 0 (R31, R45). -/
def decodeKind (v : Value) : Option PointKind :=
  if descKindBits v = 2 then (groupOfNat (descGroup v)).map .setpoint
  else if descGroup v ≠ 0 then none
  else if descKindBits v = 0 then some .unused
  else if descKindBits v = 1 then some .reading
  else some .constant

/-- The limit policy named by a descriptor word; code 3 is not defined (R178). -/
def decodePolicy (v : Value) : Option LimitPolicy :=
  if descPolicyBits v = 0 then some .none
  else if descPolicyBits v = 1 then some .refuse
  else if descPolicyBits v = 2 then some .clamp
  else none

/-- Read a descriptor word; none where a code or an unused bit makes it undefined (R31, R45, R178). -/
def decodeDesc (v : Value) : Option Descriptor :=
  if descReservedClear v then
    match decodeKind v, decodePolicy v with
    | some k, some p => some { kind := k, writers := descWriters v, policy := p }
    | _, _ => none
  else none

/-- The group field of a kind: its number on a SETPOINT, 0 on any other (R31, R40). -/
def PointKind.groupNum : PointKind → Nat
  | .setpoint g => g.num
  | _ => 0

/-! ## Map entries (R50, 13.4) -/

/-- A present map entry. -/
structure MapEntry where
  page : Byte
  rights : BitVec 3
  deriving DecidableEq, Repr

/-- Bit 31, the entry is present. -/
def entryPresent (v : Value) : Bool := v.getLsbD 31

/-- Read a map word: absent when bit 31 is 0, else its physical page and rights (R50, R178). -/
def decodeEntry (v : Value) : Option MapEntry :=
  if entryPresent v then some { page := v.extractLsb' 0 8, rights := v.extractLsb' 8 3 } else none

/-- The unused bits 11-30 of a present entry are 0 (R59, R178). -/
def entryReservedClear (v : Value) : Bool := v.extractLsb' 11 20 == 0

/-- The word stored for an entry as sent: an absent one is stored as 0 (R178). -/
def normalEntry (v : Value) : Value := if entryPresent v then v else 0

/-- The right that an access needs: R, S or P (R51). -/
def PointAccess.rightBit : PointAccess → Nat
  | .read _ => 0
  | .stage _ _ => 1
  | .post _ _ => 2

/-! ## Values and limits (R34, R43) -/

/-- The merged value: bits of the value sent where the mask is 1, bits of the base where it is 0 (R43). -/
def mergeValue (mask v base : Value) : Value := (v &&& mask) ||| (base &&& ~~~mask)

/-- The outcome of a limit check (R34). -/
inductive LimitOutcome where
  | written (v : Value)
  | clamped (v : Value)
  | outside
  deriving DecidableEq, Repr

/-- Hold a value to its limits, compared as signed integers (R34). -/
def checkLimits (p : LimitPolicy) (low high v : Value) : LimitOutcome :=
  match p with
  | .none => .written v
  | .refuse => if v.slt low || high.slt v then .outside else .written v
  | .clamp => if v.slt low then .clamped low else if high.slt v then .clamped high else .written v

/-- A record with LOW above HIGH under REFUSE or CLAMP (R45). -/
def limitsCrossed (p : LimitPolicy) (low high : Value) : Bool :=
  match p with
  | .none => false
  | _ => high.slt low

/-! ## Setting items (11.2) -/

/-- The items of the settings table. -/
inductive Item where
  | repairPolicy | scrubGuarantee | scrubInterval | scrubMask | cycleSource | cyclePeriod | poolLow
  | viewSize | parity | stopBits | rateDivisor | gapCount | crcEnforcement | linkEnable
  | watchSet | holdLimit | holdAction
  | level (k : Fin 11)
  deriving DecidableEq, Repr

/-- The item's code. -/
def Item.code : Item → Byte
  | .repairPolicy => 0x01
  | .scrubGuarantee => 0x02
  | .scrubInterval => 0x03
  | .scrubMask => 0x04
  | .cycleSource => 0x05
  | .cyclePeriod => 0x06
  | .poolLow => 0x07
  | .viewSize => 0x10
  | .parity => 0x11
  | .stopBits => 0x12
  | .rateDivisor => 0x13
  | .gapCount => 0x14
  | .crcEnforcement => 0x15
  | .linkEnable => 0x16
  | .watchSet => 0x20
  | .holdLimit => 0x21
  | .holdAction => 0x22
  | .level k => BitVec.ofNat 8 (0x30 + k.val)

/-- The items with a code of their own, levels apart. -/
def plainItems : List Item :=
  [.repairPolicy, .scrubGuarantee, .scrubInterval, .scrubMask, .cycleSource, .cyclePeriod, .poolLow, .viewSize, .parity,
   .stopBits, .rateDivisor, .gapCount, .crcEnforcement, .linkEnable, .watchSet, .holdLimit, .holdAction]

/-- The item that a code names; 30h to 3Ah are the levels of kinds 0 to 10. -/
def itemOfCode (c : Byte) : Option Item :=
  if h : 0x30 ≤ c.toNat ∧ c.toNat ≤ 0x3A then some (.level ⟨c.toNat - 0x30, by omega⟩)
  else plainItems.find? (fun i => i.code == c)

/-- Who owns an item (11.2). -/
inductive ItemKind where
  | device | supervisorPort | ownPort
  deriving DecidableEq, Repr

/-- The Kind column of the settings table. -/
def Item.kind : Item → ItemKind
  | .repairPolicy | .scrubGuarantee | .scrubInterval | .scrubMask | .cycleSource | .cyclePeriod | .poolLow => .device
  | .viewSize | .parity | .stopBits | .rateDivisor | .gapCount | .crcEnforcement | .linkEnable => .supervisorPort
  | .watchSet | .holdLimit | .holdAction | .level _ => .ownPort

/-- The Bytes column of the settings table: the length of the value, without a complement. -/
def Item.len : Item → Nat
  | .scrubInterval | .scrubMask | .cyclePeriod | .poolLow => 2
  | .watchSet => 8
  | _ => 1

/-- The bytes a SETTING_WRITE carries after item and port: the value, and the complement of CRC enforcement (R171). -/
def Item.writeLen : Item → Nat
  | .crcEnforcement => 2
  | i => i.len

/-- A value of up to eight bytes, most significant first. -/
def valueOf (bs : List Byte) : BitVec 64 := bs.foldl (fun acc b => (acc <<< 8) ||| b.setWidth 64) 0

/-- The value lies in the item's range (11.2). -/
def Item.inRange (i : Item) (v : BitVec 64) : Bool :=
  match i with
  | .repairPolicy => decide (v.toNat ≤ 1)
  | .scrubGuarantee => v == 1 || v == 2 || v == 4 || v == 8
  | .scrubInterval => true
  | .scrubMask => true
  | .cycleSource => decide (v.toNat ≤ 3)
  | .cyclePeriod => decide (1 ≤ v.toNat)
  | .poolLow => decide (v.toNat ≤ 511)
  | .viewSize => decide (v.toNat ≤ 64)
  | .parity => decide (v.toNat ≤ 2)
  | .stopBits => v == 1 || v == 2
  | .rateDivisor => true
  | .gapCount => decide (12 ≤ v.toNat)
  | .crcEnforcement => decide (v.toNat ≤ 1)
  | .linkEnable => decide (v.toNat ≤ 1)
  | .watchSet => !v.getLsbD 0
  | .holdLimit => decide (1 ≤ v.toNat)
  | .holdAction => decide (v.toNat ≤ 1)
  | .level _ => decide (v.toNat ≤ 7)

/-- The port byte of a settings request: 0 for a device item, 0 to 3 for a per-port item (R170, R171). -/
def Item.portOf (i : Item) (b : Byte) : Option Port :=
  match i.kind with
  | .device => if b = 0 then some 0 else none
  | _ => portOfByte b

/-! ## Frames (13.1, R127) -/

/-- One step of the CRC register (R127). -/
def crcStep (r : Byte) : Byte := if r.getLsbD 7 then (r <<< 1) ^^^ 0x2F else r <<< 1

/-- One byte taken into the CRC register (R127). -/
def crcByte (r b : Byte) : Byte :=
  crcStep (crcStep (crcStep (crcStep (crcStep (crcStep (crcStep (crcStep (r ^^^ b))))))))

/-- The CRC of a frame's LEN and body bytes (R127). -/
def crcOf (bs : List Byte) : Byte := bs.foldl crcByte 0xFF

/-- The start byte of a frame. -/
def sync : Byte := 0x5B

/-- LEN of a response: TAG, frame status, summary byte and body (R132, R140). -/
def Response.len (r : Response) : Nat := 3 + r.body.length

/-- The bytes of a response that the CRC covers: LEN, TAG, frame status, summary byte, body. -/
def Response.covered (r : Response) : List Byte :=
  BitVec.ofNat 8 r.len :: r.tag :: r.status :: r.summary :: r.body

/-- A response frame on the line: SYNC, LEN, TAG, frame status, summary byte, body, CRC (R132, 13.1). -/
def Response.wire (r : Response) : List Byte := sync :: r.covered ++ [crcOf r.covered]

/-! ## Request codes (9.4, 13.3) -/

def opProbe : Byte := 0x01
def opStatus : Byte := 0x02
def opClear : Byte := 0x03
def opLoaded : Byte := 0x04
def opRead : Byte := 0x10
def opReadStamped : Byte := 0x11
def opStage : Byte := 0x12
def opPost : Byte := 0x13
def opArm : Byte := 0x20
def opDiscard : Byte := 0x21
def opGroupStatus : Byte := 0x22
def opCycle : Byte := 0x23
def opDescRead : Byte := 0x30
def opDescWrite : Byte := 0x31
def opGroupWrite : Byte := 0x32
def opMapRead : Byte := 0x38
def opMapWrite : Byte := 0x39
def opFlush : Byte := 0x3A
def opSettingRead : Byte := 0x40
def opSettingWrite : Byte := 0x41
def opLogRead : Byte := 0x42
def opLogClear : Byte := 0x43
def opReset : Byte := 0x4F

/-- The scope byte of RESET WARM (13.3). -/
def scopeWarm : Byte := 0x10

/-- ARM's form bytes (13.3). -/
def formNext : Byte := 0
def formNow : Byte := 1

end Sys2Proof.Machine
end

