-- ==== Sys2Proof/Machine/Flags.lean ====
section
/-! DEFINITION. Every flag computation: link error flags (R134), event kinds (R157 to R159), top event (R162), ALERT
(R163), summary byte (R164), and the error log's findings, which raise events (R114 to R118). -/

namespace Sys2Proof.Machine

/-! ## Link error flags (R134), bits as in CLEAR and STATUS (13.3) -/

def flagParity : BitVec 6 := 0x01
def flagFraming : BitVec 6 := 0x02
def flagGap : BitVec 6 := 0x04
def flagLength : BitVec 6 := 0x08
def flagCrc : BitVec 6 := 0x10
def flagQueueFull : BitVec 6 := 0x20

/-- Set link error flags of a port; a flag already set stays set (R134). -/
def PortState.setErrors (p : PortState) (f : BitVec 6) : PortState := { p with linkErrors := p.linkErrors ||| f }

/-! ## Event kinds (R157) -/

/-- The eleven kinds. -/
inductive EventKind where
  | start | torn | linkError | holdExpired | groupLoaded | loadPartial | cycleOverrun | poolLow | eccCorrected
  | eccUncorrectable | scrubPass
  deriving DecidableEq, Repr

/-- A kind's code (R157). -/
def EventKind.code : EventKind → Nat
  | .start => 0
  | .torn => 1
  | .linkError => 2
  | .holdExpired => 3
  | .groupLoaded => 4
  | .loadPartial => 5
  | .cycleOverrun => 6
  | .poolLow => 7
  | .eccCorrected => 8
  | .eccUncorrectable => 9
  | .scrubPass => 10

/-- The kind's bit in an 11-bit set. -/
def EventKind.bit (k : EventKind) : BitVec 11 := BitVec.twoPow 11 k.code

/-- Raise sticky kinds on a port (R158). -/
def PortState.raise (k : EventKind) (p : PortState) : PortState := { p with sticky := p.sticky ||| k.bit }

/-- Raise a kind on one port. -/
def State.raise (s : State) (n : Port) (k : EventKind) : State := s.updPort n (PortState.raise k)

/-- Raise a kind on every port, in one event (R157). -/
def State.raiseAll (s : State) (k : EventKind) : State := s.updAllPorts (PortState.raise k)

/-- The pending set: sticky flags, LINK_ERROR while any link error flag is set, GROUP_LOADED while the loaded set is not
empty (R158, R159). -/
def PortState.pendingSet (p : PortState) : BitVec 11 :=
  p.sticky ||| (if p.linkErrors ≠ 0 then EventKind.linkError.bit else 0)
    ||| (if p.loaded ≠ 0 then EventKind.groupLoaded.bit else 0)

/-- The eleven kind codes in ascending order. -/
def allKinds : List (Fin 11) := [0, 1, 2, 3, 4, 5, 6, 7, 8, 9, 10]

/-- Take kind k as the best so far when it is pending at a level above the best's (R162: a tie keeps the lower code). -/
def topStep (p : PortState) (best : Nat × Nat) (k : Fin 11) : Nat × Nat :=
  if p.pendingSet.getLsbD k.val && decide (best.2 < (p.cfg.levels[k]).val) then (k.val, (p.cfg.levels[k]).val) else best

/-- The top event: the pending kind of level 1 or more with the highest level, the lowest code among equals, else 15
(R162). -/
def PortState.topEvent (p : PortState) : Nat := (allKinds.foldl (topStep p) (15, 0)).1

/-- ALERTn is driven exactly while a pending kind has a level of 1 or more (R163); released while RESET is low (R173). -/
def State.alertDriven (s : State) (n : Port) : Bool := !s.resetLow && decide ((s.port n).topEvent ≠ 15)

/-- The summary byte of port n (R164, 13.1). -/
def State.summaryByte (s : State) (n : Port) : Byte :=
  BitVec.ofNat 8 (s.port n).topEvent
    ||| (if (s.port n).linkErrors ≠ 0 then 0x10 else 0)
    ||| (if s.engine.isSome then 0x20 else 0)
    ||| (if s.log.updated then 0x40 else 0)
    ||| (if (s.port n).supervisor then 0x80 else 0)

/-! ## Findings and the error log (R10, R114 to R118) -/

/-- A finding: where, by whom, and whether it is a correction or an uncorrectable word (R10). -/
structure Finding where
  entry : LogEntry
  correction : Bool
  deriving DecidableEq, Repr

/-- The findings of an operation that reads the listed words, in their order (R10). -/
def State.findings (s : State) (src : Requester) (slot : Nat) (ws : List WordName) : List Finding :=
  ws.filterMap (fun w =>
    match s.word slot w with
    | .clean _ => none
    | .correctable _ => some { entry := { slot := slot, word := w, source := src }, correction := true }
    | .uncorrectable => some { entry := { slot := slot, word := w, source := src }, correction := false })

/-- What one finding does to the log's entries and flag (R115, R116). -/
def ErrorLog.take (l : ErrorLog) (f : Finding) : ErrorLog :=
  if f.correction then { l with corrected := some f.entry, updated := true }
  else
    match l.uncorrectable with
    | some _ => l
    | none => { l with uncorrectable := some f.entry, updated := true }

/-- The log takes one finding and raises its event on every port (R118). -/
def State.takeFinding (s : State) (f : Finding) : State :=
  { s with log := s.log.take f }.raiseAll (if f.correction then .eccCorrected else .eccUncorrectable)

/-- The log takes the findings of one completion, one after another (R114). -/
def State.takeFindings (s : State) (fs : List Finding) : State := fs.foldl State.takeFinding s

end Sys2Proof.Machine
end

