-- ==== Sys2Proof/Machine/Arbiter.lean ====
section
/-! DEFINITION. The bank arbiters (chapter 2): arrival of a request, the choice of the next grant, the state each grant
changes, and what resets withdraw (R16, R17, R19 to R28). -/

namespace Sys2Proof.Machine

/-- A requester waits at this bank. -/
def Bank.waits (b : Bank) (r : Requester) : Bool := b.waiting.any (fun op => op.who == r)

/-- The rotation after the last-granted port, which comes last itself (R23). -/
def rotationAfter (last : Port) : List Port := [last + 1, last + 2, last + 3, last]

/-- The requester of the next grant: load engine, scrub engine once K is reached, ports in rotation, scrub engine (R23). -/
def Bank.choice (k : Nat) (b : Bank) : Option Requester :=
  if b.waits .load then some .load
  else if b.waits .scrub && decide (k ≤ b.waitCount) then some .scrub
  else
    match (rotationAfter b.lastGranted).find? (fun n => b.waits (.ce n)) with
    | some n => some (.ce n)
    | none => if b.waits .scrub then some .scrub else none

/-- The grant of an operation: the bank is BUSY with it, and the arbiter's state changes by the second table of R23. -/
def Bank.grant (op : BankOp) (b : Bank) : Bank :=
  match op.who with
  | .load => { b with phase := .busy op }
  | .scrub => { b with phase := .busy op, waitCount := 0 }
  | .ce n =>
    { b with phase := .busy op, lastGranted := n, waitCount := if b.waits .scrub then b.waitCount + 1 else b.waitCount }

/-- The grant decision at a completion: one waiting request is granted, or the bank becomes IDLE (R22). -/
def Bank.grantNext (k : Nat) (b : Bank) : Bank :=
  match b.choice k with
  | none => { b with phase := .idle }
  | some r =>
    match b.waiting.find? (fun op => op.who == r) with
    | none => { b with phase := .idle }
    | some op => Bank.grant op { b with waiting := b.waiting.erase op }

/-- A request arrives: granted at once at an IDLE bank, else it waits (R20). -/
def Bank.arrive (op : BankOp) (b : Bank) : Bank :=
  match b.phase with
  | .idle => b.grant op
  | _ => { b with waiting := b.waiting ++ [op] }

/-- A request of this requester is outstanding at the bank: it waits, or its operation is in flight (R19). -/
def Bank.claimedBy (r : Requester) (b : Bank) : Bool :=
  b.waits r ||
    match b.phase with
    | .busy op => op.who == r
    | _ => false

/-- A request of this requester is outstanding somewhere in the store (R19). -/
def State.outstanding (s : State) (r : Requester) : Bool :=
  [(0 : BankId), 1, 2, 3].any (fun b => (s.bank b).claimedBy r)

/-- A request arrives at the arbiter of its slot's bank (R7, R20). -/
def State.arriveAt (s : State) (op : BankOp) : State := s.updBank (bankOf op.slot) (Bank.arrive op)

/-- What this requester held back is gone (log 20). -/
def State.forget (s : State) (r : Requester) : State := { s with heldBack := s.heldBack.filter (fun op => op.who != r) }

/-- Place a request with the arbiter of its slot's bank (R7); a requester whose earlier operation is still outstanding places
none and holds the request back (R19). Only CEn after a port reset comes to that (R17; log 20). -/
def State.place (s : State) (op : BankOp) : State :=
  { s with
    banks := if s.outstanding op.who then s.banks else (s.arriveAt op).banks
    heldBack := if s.outstanding op.who then (s.forget op.who).heldBack ++ [op] else s.heldBack }

/-- The requester's operation has completed with its result dropped: it places the request that it held back (R19; log 20). -/
def State.release (s : State) (r : Requester) : State :=
  match s.heldBack.find? (fun op => op.who == r) with
  | none => s
  | some op => (s.forget r).place op

/-- The grant decision of bank b, by the K in force (R22, R24). -/
def State.grantNext (s : State) (b : BankId) : State := s.updBank b (Bank.grantNext s.dev.guarantee.toNat)

/-- Requests that arrive at one bank at the same moment: at an IDLE bank either may arrive first (R20), and the free value
picks which (log 7); the others then wait. At any other bank all of them wait. -/
def State.placeTogether (s : State) (ops : List BankOp) : State :=
  match ops with
  | [] => s
  | [op] => s.place op
  | op :: more =>
    match (s.bank (bankOf op.slot)).phase with
    | .idle =>
      let all := op :: more
      let first := all.getD (Config.arrivalPick s.arrivals % all.length) op
      (all.erase first).foldl State.place ({ s with arrivals := s.arrivals + 1 }.place first)
    | _ => (op :: more).foldl State.place s

/-- Requests placed in one event, bank by bank (different banks are independent, R30). -/
def State.placeAll (s : State) (ops : List BankOp) : State :=
  [(0 : BankId), 1, 2, 3].foldl (fun s b => s.placeTogether (ops.filter (fun op => bankOf op.slot == b))) s

/-- What a port reset of port n does at a bank: a waiting request of CEn is withdrawn, an operation of CEn in flight goes on
with its result dropped (R17, R26). -/
def Bank.portReset (n : Port) (b : Bank) : Bank :=
  { b with
    waiting := b.waiting.filter (fun op => op.who != .ce n)
    phase :=
      match b.phase with
      | .busy op => if op.who = .ce n then .busy { op with dropped := true } else .busy op
      | ph => ph }

/-- What a view size of port n does to an operation in flight: a fill of CEn for a page at or above the new size inserts nothing
at its completion, whatever the size is then (R56, R63). -/
def BankOp.barFill (n : Port) (size : Nat) (op : BankOp) : BankOp :=
  match op.act with
  | .mapFill l _ => if op.who = .ce n ∧ size ≤ l then { op with act := .mapFill l false } else op
  | _ => op

/-- The same at a bank; a fill that only waits is not in flight yet (R63; log 24). -/
def Bank.barFill (n : Port) (size : Nat) (b : Bank) : Bank :=
  { b with
    phase :=
      match b.phase with
      | .busy op => .busy (op.barFill n size)
      | ph => ph }

/-- What a warm reset does at a bank: operation abandoned, requests withdrawn, IDLE, arbiter in its cold state (R16, R27). -/
def Bank.warmReset (b : Bank) : Bank :=
  { b with phase := .idle, waiting := [], lastGranted := 3, waitCount := 0 }

/-- What the falling edge of RESET does at a bank: operation abandoned, requests withdrawn, the fill stopped where it is
(R12, R14, R173). -/
def Bank.stopped (b : Bank) : Bank :=
  { b with
    waiting := []
    phase :=
      match b.phase with
      | .busy _ => .idle
      | ph => ph }

/-- The scrub engine has a request waiting or in flight (R108). -/
def State.scrubOutstanding (s : State) : Bool := s.outstanding .scrub

end Sys2Proof.Machine
end

