-- ==== Sys2Proof/Machine/LoadEngine.lean ====
section
/-! DEFINITION. The load engine (chapters 5 and 6): stage marks, admission, the pool, group states, cycle events, load
start, transfers and load end. -/

namespace Sys2Proof.Machine

/-! ## Marks (R69) -/

/-- The stage mark of point p: the pool entry in use that names it, with its group; absent when none does (R69). -/
def State.markOf (s : State) (p : Nat) : Option (GroupId × StageEntry) :=
  allGroups.findSome? (fun g => ((s.group g).list.find? (fun e => e.point == p)).map (fun e => (g, e)))

/-- The point has a stage mark. -/
def State.marked (s : State) (p : Nat) : Bool := (s.markOf p).isSome

/-- A group's staged count (R70, R84). -/
def GroupRec.count (r : GroupRec) : Nat := r.list.length

/-- The pool's free count (R67). -/
def State.freeCount (s : State) : Nat := s.freeList.length

/-! ## Admission (R71 to R79) -/

/-- The outcomes of admission (R71). -/
inductive Admission where
  | busy | restage | poolFull | newStage
  deriving DecidableEq, Repr

/-- The load engine's decision on point p of group g (R71). -/
def State.admission (s : State) (p : Nat) (g : GroupId) : Admission :=
  if (s.group g).state = .loading then .busy
  else if s.marked p then .restage
  else
    match s.freeList with
    | [] => .poolFull
    | _ :: _ => .newStage

/-- The restage of a marked point: its entry keeps its place and takes the port as stager (R73). -/
def State.restage (s : State) (n : Port) (p : Nat) : State :=
  match s.markOf p with
  | none => s
  | some (g, _) =>
    s.updGroup g (fun r => { r with list := r.list.map (fun e => if e.point = p then { e with stager := n } else e) })

/-- The group record after a new stage joins its tail; an EMPTY group becomes STAGING (R72). -/
def GroupRec.join (e : StageEntry) (r : GroupRec) : GroupRec :=
  { r with list := r.list ++ [e], state := if r.state = .empty then .staging else r.state }

/-- A new stage: the entry at the head of the free list goes to the tail of g's list; POOL_LOW is raised when the free
count falls from the threshold or above to below it (R72, R79). -/
def State.newStage (s : State) (n : Port) (p : Nat) (g : GroupId) : State :=
  match s.freeList with
  | [] => s
  | e :: rest =>
    let s1 := { s with freeList := rest }.updGroup g (GroupRec.join { entry := e, point := p, stager := n })
    if s.dev.poolLow.toNat ≤ rest.length + 1 ∧ rest.length < s.dev.poolLow.toNat then s1.raiseAll .poolLow else s1

/-! ## Entries leaving other than by transfer (R81, R82, R89) -/

/-- A group without staged points: EMPTY, and off the load queue (R85, R97). -/
def State.emptyGroup (s : State) (g : GroupId) : State :=
  { s with loadQueue := s.loadQueue.filter (fun q => q != g) }.updGroup g (fun r => { r with state := .empty, list := [] })

/-- DISCARD of a group that is not LOADING: its entries join the free list's tail in list order (R81, R89). -/
def State.discard (s : State) (g : GroupId) : State :=
  { s with freeList := s.freeList ++ (s.group g).list.map StageEntry.entry }.emptyGroup g

/-- DESC_WRITE's removal of the stage of point p (R46, R82): the entry joins the free list's tail; a group emptied so
becomes EMPTY and leaves the queue. -/
def State.removeStage (s : State) (g : GroupId) (e : StageEntry) : State :=
  let rest := (s.group g).list.filter (fun x => x.point != e.point)
  let s1 := { s with freeList := s.freeList ++ [e.entry] }
  match rest with
  | [] => s1.emptyGroup g
  | _ :: _ => s1.updGroup g (fun r => { r with list := rest })

/-! ## Loads (R97 to R100) -/

/-- The TRANSFER operation of a pool entry's point (R98). -/
def transferOp (e : StageEntry) : BankOp := { who := .load, slot := e.point, act := .transfer, dropped := false }

/-- Start the load of the queue's head when the engine is IDLE (R98); also answers the first TRANSFER to place. -/
def State.startLoad (s : State) : State × List BankOp :=
  match s.engine, s.loadQueue with
  | none, g :: rest =>
    ({ s with
        loadQueue := rest
        engine := some g
        load := { cycle := s.cycleNumber, transferred := 0, skipped := 0, firstSkipped := none } }.updGroup g
          (fun r => { r with state := .loading }),
      ((s.group g).list.take 1).map transferOp)
  | _, _ => (s, [])

/-- Start a load if one is due and place its first TRANSFER. -/
def State.startAndPlace (s : State) : State := s.startLoad.2.foldl State.place s.startLoad.1

/-- Append a group to the load queue as QUEUED (R85). -/
def State.enqueueGroup (s : State) (g : GroupId) : State :=
  { s with loadQueue := s.loadQueue ++ [g] }.updGroup g (fun r => { r with state := .queued })

/-- A group is due at a cycle event: ARMED, or CYCLIC and STAGING (R95). -/
def GroupRec.due (r : GroupRec) : Bool := r.state == .armed || (r.mode == .cyclic && r.state == .staging)

/-- Step 1 and 2 of R95: the cycle number advances, and an overrun is raised on every port when the engine is LOADING or
the queue holds a group. -/
def State.countCycle (s : State) : State :=
  let s1 := { s with cycleNumber := s.cycleNumber + 1 }
  if s.engine.isSome || !s.loadQueue.isEmpty then s1.raiseAll .cycleOverrun else s1

/-- Step 3 of R95: every due group is queued, in ascending number. -/
def State.queueDue (s : State) : State := (allGroups.filter (fun g => (s.group g).due)).foldl State.enqueueGroup s

/-- One cycle event (R95). -/
def State.cycleEvent (s : State) : State := s.countCycle.queueDue.startAndPlace

/-- ARM NOW's queueing of a STAGING or ARMED group, with the load start it may bring (R88, R98). -/
def State.armNow (s : State) (g : GroupId) : State := (s.enqueueGroup g).startAndPlace

/-- The load's running counts after the transfer of point p: transferred, or skipped when STAGED is UNCORRECTABLE (R99). -/
def LoadRun.after (l : LoadRun) (p : Nat) (skip : Bool) : LoadRun :=
  if skip then
    { l with skipped := l.skipped + 1, firstSkipped := some (l.firstSkipped.getD p) }
  else { l with transferred := l.transferred + 1 }

/-- The head entry of the loading group's list returns to the free list's tail (R80). -/
def State.returnHead (s : State) (g : GroupId) : State :=
  match (s.group g).list with
  | [] => s
  | e :: rest => { s with freeList := s.freeList ++ [e.entry] }.updGroup g (fun r => { r with list := rest })

/-- The last-load record of the load in hand (R100). -/
def State.loadRecord (s : State) : LastLoad :=
  { cycle := s.load.cycle, partialLoad := s.load.skipped != 0, transferred := s.load.transferred, skipped := s.load.skipped,
    firstSkipped := s.load.firstSkipped }

/-- The group's bit in a watch set or loaded set (R160, R161). -/
def groupBit (g : GroupId) : BitVec 64 := BitVec.twoPow 64 g.num

/-- What the end of a load of g does on one port: a watcher's loaded set takes g, and LOAD_PARTIAL is raised on it when the
result is PARTIAL (R100). -/
def PortState.notifyLoad (g : GroupId) (partialLoad : Bool) (p : PortState) : PortState :=
  if p.cfg.watch.getLsbD g.num then
    let p1 := { p with loaded := p.loaded ||| groupBit g }
    if partialLoad then p1.raise .loadPartial else p1
  else p

/-- The READ operation that a hold re-asks for, on the slot translated before the hold (R103). -/
def heldReadOp (n : Port) (h : Hold) : BankOp :=
  { who := .ce n, slot := h.slot, dropped := false,
    act :=
      match h.run.todo with
      | .read prefer :: _ => .read prefer
      | _ => .read false }

/-- The READs that the end of g's load makes held engines re-ask for (R100, R103). -/
def State.heldReads (s : State) (g : GroupId) : List BankOp :=
  allPorts.filterMap (fun n =>
    match (s.port n).ce with
    | .holding h => if h.group = g then some (heldReadOp n h) else none
    | _ => none)

/-- An engine holding on g ends its hold and waits for its new READ (R103). -/
def PortState.endHold (g : GroupId) (p : PortState) : PortState :=
  match p.ce with
  | .holding h => if h.group = g then { p with ce := .waiting (.access h.run h.slot) } else p
  | _ => p

/-- The end of g's load (R100), short of placing requests: g EMPTY with its record, watchers told, holds ended, the next
load started; with the requests to be placed. -/
def State.endLoad (s : State) (g : GroupId) : State × List BankOp :=
  let s1 := { s with engine := none }.updGroup g (fun r => { r with state := .empty, lastLoad := some s.loadRecord })
  let s2 := (s1.updAllPorts (PortState.notifyLoad g (s.load.skipped != 0))).updAllPorts (PortState.endHold g)
  (s2.startLoad.1, s.heldReads g ++ s2.startLoad.2)

/-- What the load engine does with the result of the TRANSFER of point p (R80, R99, R100); with the requests to be
placed after the bank's grant decision (R22). -/
def State.transferred (s : State) (p : Nat) (skip : Bool) : State × List BankOp :=
  match s.engine with
  | none => (s, [])
  | some g =>
    let s1 := { s with load := s.load.after p skip }.returnHead g
    match (s1.group g).list with
    | [] => s1.endLoad g
    | e :: _ => (s1, [transferOp e])

end Sys2Proof.Machine
end

