-- ==== Sys2Proof/Machine/Engine.lean ====
section
/-! DEFINITION. What the command engines share: response buffers and transmitter (R131, R132), completing a response
(R140), the translation cache (R53, R54, R56) and the points of a run (R51, R144 to R147). -/

namespace Sys2Proof.Machine

/-! ## Response buffers and transmitter -/

/-- A buffer of the port. -/
def PortState.buf (p : PortState) : BufId → Buffer
  | .zero => p.buf0
  | .one => p.buf1

/-- Replace a buffer of the port. -/
def PortState.setBuf (p : PortState) (k : BufId) (x : Buffer) : PortState :=
  match k with
  | .zero => { p with buf0 := x }
  | .one => { p with buf1 := x }

/-- The buffer that CEn reserves: buffer 0 when both are FREE (R131). -/
def PortState.freeBuf (p : PortState) : Option BufId :=
  match p.buf0, p.buf1 with
  | .free, _ => some .zero
  | _, .free => some .one
  | _, _ => none

/-- The RESERVED buffer. -/
def PortState.reservedBuf (p : PortState) : Option BufId :=
  match p.buf0, p.buf1 with
  | .reserved, _ => some .zero
  | _, .reserved => some .one
  | _, _ => none

/-- A FILLED buffer with its frame. -/
def PortState.filledBuf (p : PortState) : Option (BufId × Response) :=
  match p.buf0, p.buf1 with
  | .filled r, _ => some (.zero, r)
  | _, .filled r => some (.one, r)
  | _, _ => none

/-- The buffer whose frame is leaving the line; none while the transmitter is IDLE (R132). -/
def PortState.sendingBuf (p : PortState) : Option BufId :=
  match p.buf0, p.buf1 with
  | .sending _ _, _ => some .zero
  | _, .sending _ _ => some .one
  | _, _ => none

/-- The character form of the port's line settings (R122). -/
def PortState.form (p : PortState) : CharForm :=
  { parity := p.cfg.parity, twoStops := p.cfg.twoStops, divisor := p.cfg.divisor }

/-- An IDLE transmitter starts a FILLED buffer at once, under the settings in force (R132); none while the link is disabled
(R135). -/
def PortState.startTransmitter (p : PortState) : PortState :=
  if p.cfg.linkOn && p.sendingBuf.isNone then
    match p.filledBuf with
    | some (k, r) => p.setBuf k (.sending r p.form)
    | none => p
  else p

/-- Set the state of CEn. -/
def State.setEngine (s : State) (n : Port) (e : Engine) : State := s.updPort n (fun p => { p with ce := e })

/-- Complete the response of the request in execution (R140): TAG, status, the summary byte as it stands now, and body, into
the RESERVED buffer, which becomes FILLED; CEn is IDLE. A request whose own port reset has freed its buffer leaves none
(R131, R135). -/
def State.respond (s : State) (n : Port) (tag : Byte) (st : FrameStatus) (body : List Byte) : State :=
  match (s.port n).reservedBuf with
  | none => s.setEngine n .idle
  | some k =>
    s.updPort n (fun p =>
      ({ p.setBuf k (.filled { tag := tag, status := frameCode st, summary := s.summaryByte n, body := body }) with
          ce := .idle }).startTransmitter)

/-! ## The translation cache (R53 to R56) -/

/-- The cached entry of a logical page (R51 step 2). -/
def PortState.lookup (p : PortState) (l : Nat) : Option CacheEntry := p.cache.find? (fun e => e.logical == l)

/-- The cache without the entry of a logical page. -/
def cacheWithout (l : Nat) (c : List CacheEntry) : List CacheEntry := c.filter (fun e => e.logical != l)

/-- A hit makes the entry the most recently used (R54). -/
def PortState.touch (l : Nat) (p : PortState) : PortState :=
  match p.lookup l with
  | some e => { p with cache := e :: cacheWithout l p.cache }
  | none => p

/-- Insert an entry as most recently used, evicting the least recently used of eight (R56). The page is not held already,
since a fill is asked for only on a miss; taking it out first changes nothing then. -/
def PortState.insertEntry (e : CacheEntry) (p : PortState) : PortState :=
  { p with cache := e :: (cacheWithout e.logical p.cache).take 7 }

/-- Remove the entry of a logical page (R60). -/
def PortState.invalidate (l : Nat) (p : PortState) : PortState := { p with cache := cacheWithout l p.cache }

/-- The slot of a point within a physical page (R51 step 4). -/
def slotIn (page : Byte) (point : Half) : Nat := 16 * page.toNat + point.toNat % 16

/-! ## Point runs (R144 to R147) -/

/-- The next point of the run, in 16-bit arithmetic (R145). -/
def PointRun.nextPoint (r : PointRun) : Half := if r.down then r.point - 1 else r.point + 1

/-- A point's result (R146). -/
structure PointResult where
  status : PointStatus
  corrected : Bool
  fromStaged : Bool
  value : Value
  group : Nat
  cycle : Half
  deriving DecidableEq, Repr

/-- The result of a point answered without a point access (R51): no value, group 0, no cycle (R147). -/
def PointResult.refused (st : PointStatus) (corrected : Bool) : PointResult :=
  { status := st, corrected := corrected, fromStaged := false, value := noValue, group := 0, cycle := noCycle }

/-- A point's record in the response body (R146, 13.2). -/
def PointResult.record (x : PointResult) : RecordShape → List Byte
  | .read => statusByte x.status x.corrected x.fromStaged :: valueBytes x.value
  | .stamped =>
    statusByte x.status x.corrected x.fromStaged :: valueBytes x.value ++ BitVec.ofNat 8 x.group :: halfBytes x.cycle
  | .status => [statusByte x.status x.corrected x.fromStaged]

/-- The run after its point in hand has received its result (R145). -/
def PointRun.settle (r : PointRun) (x : PointResult) : PointRun :=
  { r with point := r.nextPoint, todo := r.todo.tail, records := r.records ++ x.record r.shape, corrected := false }

/-- The bank operation of a point access (R8). -/
def accessOp (n : Port) (a : PointAccess) (slot : Nat) : BankOp :=
  { who := .ce n, slot := slot, dropped := false,
    act :=
      match a with
      | .read prefer => .read prefer
      | .stage v mask => .stage v mask
      | .post v mask => .post v mask }

/-- The MAP operation of a translation fill (R55). -/
def fillOp (n : Port) (l : Nat) : BankOp := { who := .ce n, slot := mapSlot n l, act := .mapFill l true, dropped := false }

/-- CEn asks for the access of the point in hand and is WAITING for it. -/
def State.askAccess (s : State) (n : Port) (r : PointRun) (a : PointAccess) (slot : Nat) : State :=
  (s.setEngine n (.waiting (.access r slot))).place (accessOp n a slot)

/-- CEn asks for the fill of a translation and is WAITING for it. -/
def State.askFill (s : State) (n : Port) (r : PointRun) (l : Nat) : State :=
  (s.setEngine n (.waiting (.fill r l))).place (fillOp n l)

/-- CEn goes on with a run from its point in hand (R51, R145): points answered at translation are settled within the event,
the first point that needs the store is asked for, and after the last point the response is completed. -/
def State.advance (n : Port) : List PointAccess → PointRun → State → State
  | [], r, s => s.respond n r.tag .ok r.records
  | a :: rest, r, s =>
    if 16 * (s.port n).cfg.viewSize.toNat ≤ r.point.toNat then
      State.advance n rest (r.settle (.refused .unmapped r.corrected)) s
    else
      match (s.port n).lookup (r.point.toNat / 16) with
      | none => s.askFill n r (r.point.toNat / 16)
      | some e =>
        if e.rights.getLsbD a.rightBit then
          (s.updPort n (PortState.touch (r.point.toNat / 16))).askAccess n r a (slotIn e.page r.point)
        else
          State.advance n rest (r.settle (.refused .denied r.corrected))
            (s.updPort n (PortState.touch (r.point.toNat / 16)))

/-- CEn goes on with a run whose point in hand is not yet translated. -/
def State.goOn (s : State) (n : Port) (r : PointRun) : State := State.advance n r.todo r s

/-- CEn settles the point in hand and goes on. -/
def State.settlePoint (s : State) (n : Port) (r : PointRun) (x : PointResult) : State := s.goOn n (r.settle x)

/-- The slot and rights steps with the entry a fill has read (R51, R57). -/
def State.useEntry (s : State) (n : Port) (r : PointRun) (e : MapEntry) : State :=
  match r.todo with
  | [] => s.goOn n r
  | a :: _ =>
    if e.rights.getLsbD a.rightBit then s.askAccess n r a (slotIn e.page r.point)
    else s.settlePoint n r (.refused .denied r.corrected)

/-- The last-load cycle of a group as READ_STAMPED returns it (R147). -/
def State.lastCycle (s : State) (k : PointKind) : Half :=
  match k with
  | .setpoint g =>
    match (s.group g).lastLoad with
    | some l => l.cycle
    | none => noCycle
  | _ => noCycle

end Sys2Proof.Machine
end

