-- ==== Sys2Proof/Machine/Resets.lean ====
section
/-! DEFINITION. Port reset (R175 and the rules it gathers), warm reset (R174), and the two edges of RESET (R173). -/

namespace Sys2Proof.Machine

/-- The receiver when a character in progress is dropped: it waits for the line to be high (R130, R136). -/
def Receiver.dropped : Receiver → Receiver
  | .taking => .waitHigh
  | r => r

/-- The assembler discards its frame and hunts, its gap timer stopped; a character in progress is dropped (R130, R136). -/
def PortState.toHunt (p : PortState) : PortState := { p with rx := p.rx.dropped, asm := .hunt, gapTimer := none }

/-- What a port reset does to the port itself: link port, command engine, cache, event state (R136, R138, R66, R105, R166).
Settings and role are kept. -/
def PortState.portReset (p : PortState) : PortState :=
  { p.toHunt with
    queue := [], buf0 := .free, buf1 := .free, linkErrors := 0, ce := .idle, cache := [], sticky := EventKind.start.bit,
    loaded := 0 }

/-- Port reset of port n (R175): the port itself, and CEn's requests and operation at the banks (R17, R26). A request that CEn
held back goes with its engine's work (log 20). -/
def State.portReset (s : State) (n : Port) : State :=
  ((s.forget (.ce n)).updAllBanks (Bank.portReset n)).updPort n PortState.portReset

/-- The torn field that a warm reset leaves (R107): present when it cuts a load. -/
def State.tornNow (s : State) : Option Torn :=
  s.engine.map (fun g =>
    { group := g, transferred := s.load.transferred, untransferred := s.load.skipped + (s.group g).list.length })

/-- A group after a warm reset: EMPTY, last load absent; mode and arm set kept (R84, R106). -/
def GroupRec.warmReset (r : GroupRec) : GroupRec := { r with state := .empty, list := [], lastLoad := none }

/-- The cycle timer after a warm reset (R93, R106). -/
def State.freshCycleTimer (s : State) : Option Nat :=
  match s.dev.source with
  | .timer => some s.dev.period.toNat
  | _ => none

/-- The scrub interval timer started with a full interval, or stopped when the interval is 0 (R109, R113). -/
def State.freshScrubTimer (s : State) : Option Nat :=
  if s.dev.scrubInterval = 0 then none else some s.dev.scrubInterval.toNat

/-- The warm reset's effects on everything but the ports (R174). -/
def State.warmCore (s : State) : State :=
  { s with
    banks := mapAll Bank.warmReset s.banks
    heldBack := []
    freeList := allEntries
    groups := mapAll GroupRec.warmReset s.groups
    loadQueue := []
    engine := none
    load := { s.load with transferred := 0, skipped := 0, firstSkipped := none }
    cycleTimer := s.freshCycleTimer
    scrubTimer := s.freshScrubTimer
    startCause := .warm
    torn := s.tornNow }

/-- Warm reset (R174): a port reset on every port, which raises START, then TORN when a load was cut (R107, R166). -/
def State.warmReset (s : State) : State :=
  let s1 := s.warmCore.updAllPorts PortState.portReset
  if s.tornNow.isSome then s1.raiseAll .torn else s1

/-- A port when RESET goes low (R173): gap and hold timers stop, the frame being sent is cut, the engine is held in reset. -/
def PortState.stopped (p : PortState) : PortState :=
  { p with
    gapTimer := none
    ce := .idle
    buf0 := match p.buf0 with
      | .sending _ _ => .free
      | x => x
    buf1 := match p.buf1 with
      | .sending _ _ => .free
      | x => x }

/-- The falling edge of RESET: the part stops (R173). -/
def State.stopPart (s : State) : State :=
  { s with
    resetLow := true
    banks := mapAll Bank.stopped s.banks
    heldBack := []
    cycleTimer := none
    scrubTimer := none
    ports := mapAll PortState.stopped s.ports }

/-- The four ports at cold reset with the roles their straps give (R168). -/
def coldPorts (roles : BitVec 4) : Vector PortState 4 :=
  #v[PortState.cold (roles.getLsbD 0), PortState.cold (roles.getLsbD 1), PortState.cold (roles.getLsbD 2),
    PortState.cold (roles.getLsbD 3)]

/-- The rising edge of RESET, or power-up: cold reset (R173). The words of the store stay until the fill writes them
(R15). -/
def State.coldReset (s : State) (roles : BitVec 4) : State :=
  { s with
    banks := Vector.replicate 4 Bank.cold
    heldBack := []
    freeList := allEntries
    groups := Vector.replicate 63 GroupRec.cold
    loadQueue := []
    engine := none
    load := LoadRun.cold
    cycleNumber := 0
    cycleTimer := none
    patrol := 0
    scrubTimer := none
    log := { corrected := none, uncorrectable := none, updated := false }
    dev := DeviceSettings.cold
    startCause := .cold
    torn := none
    resetLow := false
    ports := coldPorts roles }

end Sys2Proof.Machine
end

