-- ==== Sys2Proof/Machine/Settings.lean ====
section
/-! DEFINITION. Settings (11.2): reading every item, and applying a write of each with the effects its block's rule attaches
(R172). -/

namespace Sys2Proof.Machine

/-- The repair policy's code (11.2). -/
def repairCode : RepairPolicy → Byte
  | .onAccess => 0
  | .scrubOnly => 1

/-- The cycle source's code (11.2). -/
def sourceCode : CycleSource → Byte
  | .request => 0
  | .lineRise => 1
  | .lineFall => 2
  | .timer => 3

/-- The cycle source that a code names. -/
def sourceOf (v : BitVec 64) : CycleSource :=
  if v = 0 then .request else if v = 1 then .lineRise else if v = 2 then .lineFall else .timer

/-- The parity setting's code (11.2). -/
def parityCode : Parity → Byte
  | .none => 0
  | .even => 1
  | .odd => 2

/-- The parity setting that a code names. -/
def parityOf (v : BitVec 64) : Parity := if v = 0 then .none else if v = 1 then .even else .odd

/-- The value of an item as it stands, in the item's length; CRC enforcement without complement (R170). -/
def State.itemBytes (s : State) (m : Port) : Item → List Byte
  | .repairPolicy => [repairCode s.dev.repair]
  | .scrubGuarantee => [s.dev.guarantee]
  | .scrubInterval => halfBytes s.dev.scrubInterval
  | .scrubMask => halfBytes s.dev.scrubMask
  | .cycleSource => [sourceCode s.dev.source]
  | .cyclePeriod => halfBytes s.dev.period
  | .poolLow => halfBytes s.dev.poolLow
  | .viewSize => [(s.port m).cfg.viewSize]
  | .parity => [parityCode (s.port m).cfg.parity]
  | .stopBits => [if (s.port m).cfg.twoStops then 2 else 1]
  | .rateDivisor => [(s.port m).cfg.divisor]
  | .gapCount => [(s.port m).cfg.gapCount]
  | .crcEnforcement => [flagByte (s.port m).cfg.crcOn]
  | .linkEnable => [flagByte (s.port m).cfg.linkOn]
  | .watchSet => bytes64 (s.port m).cfg.watch
  | .holdLimit => [(s.port m).cfg.holdLimit]
  | .holdAction => [flagByte (s.port m).cfg.holdWaits]
  | .level k => [BitVec.ofNat 8 ((s.port m).cfg.levels[k]).val]

/-- Change the per-port items of port m. -/
def State.updCfg (s : State) (m : Port) (f : PortSettings → PortSettings) : State :=
  s.updPort m (fun p => { p with cfg := f p.cfg })

/-- Repair policy (R6): from the next completion. -/
def State.writeRepairPolicy (s : State) (v : BitVec 64) : State :=
  { s with dev := { s.dev with repair := if v = 0 then .onAccess else .scrubOnly } }

/-- Scrub guarantee K (R24): from the next grant decision; wait counts stay. -/
def State.writeGuarantee (s : State) (v : BitVec 64) : State :=
  { s with dev := { s.dev with guarantee := v.setWidth 8 } }

/-- Scrub interval (R109): the timer starts a full interval at every write of 1 or more, and stops at 0. -/
def State.writeScrubInterval (s : State) (v : BitVec 64) : State :=
  let s1 := { s with dev := { s.dev with scrubInterval := v.setWidth 16 } }
  { s1 with scrubTimer := s1.freshScrubTimer }

/-- Scrub mask (R110): from the next slot choice. -/
def State.writeScrubMask (s : State) (v : BitVec 64) : State :=
  { s with dev := { s.dev with scrubMask := v.setWidth 16 } }

/-- Cycle source (R92, R93): the timer starts a full period when the source becomes TIMER from another, goes on when it
stays TIMER, and stops when the source is any other. -/
def State.writeCycleSource (s : State) (v : BitVec 64) : State :=
  let new := sourceOf v
  { s with
    dev := { s.dev with source := new }
    cycleTimer :=
      if new = .timer then (if s.dev.source = .timer then s.cycleTimer else some s.dev.period.toNat) else none }

/-- Cycle period (R93): under TIMER every write starts a full new period. -/
def State.writeCyclePeriod (s : State) (v : BitVec 64) : State :=
  let s1 := { s with dev := { s.dev with period := v.setWidth 16 } }
  { s1 with cycleTimer := s1.freshCycleTimer }

/-- Pool-low threshold (R79): from the next new stage. -/
def State.writePoolLow (s : State) (v : BitVec 64) : State :=
  { s with dev := { s.dev with poolLow := v.setWidth 16 } }

/-- View size (R63): cache entries at or above the new size are removed, and a fill in flight for such a page inserts nothing
(R56). -/
def State.writeViewSize (s : State) (m : Port) (v : BitVec 64) : State :=
  (s.updAllBanks (Bank.barFill m (v.setWidth 8 : Byte).toNat)).updPort m (fun p =>
    { p with
      cfg := { p.cfg with viewSize := v.setWidth 8 }
      cache := p.cache.filter (fun e => decide (e.logical < (v.setWidth 8).toNat)) })

/-- A line settings write (R130): the item takes its value and the assembler returns to HUNT; queue and buffers are kept. -/
def State.writeLine (s : State) (m : Port) (f : PortSettings → PortSettings) : State :=
  (s.updCfg m f).updPort m PortState.toHunt

/-- Parity (R130). -/
def State.writeParity (s : State) (m : Port) (v : BitVec 64) : State :=
  s.writeLine m (fun c => { c with parity := parityOf v })

/-- Stop bits (R130). -/
def State.writeStopBits (s : State) (m : Port) (v : BitVec 64) : State :=
  s.writeLine m (fun c => { c with twoStops := v == 2 })

/-- Rate divisor (R130). -/
def State.writeDivisor (s : State) (m : Port) (v : BitVec 64) : State :=
  s.writeLine m (fun c => { c with divisor := v.setWidth 8 })

/-- Gap count (R130). -/
def State.writeGapCount (s : State) (m : Port) (v : BitVec 64) : State :=
  s.writeLine m (fun c => { c with gapCount := v.setWidth 8 })

/-- CRC enforcement (R130). -/
def State.writeCrc (s : State) (m : Port) (v : BitVec 64) : State :=
  s.writeLine m (fun c => { c with crcOn := v == 1 })

/-- Link enable (R135): a change makes a port reset of port m, and disables or enables the link; a write of the value held
has no effect. -/
def State.writeLinkEnable (s : State) (m : Port) (v : BitVec 64) : State :=
  let new := v == 1
  if (s.port m).cfg.linkOn = new then s
  else (s.portReset m).updCfg m (fun c => { c with linkOn := new })

/-- Watch set (R160). -/
def State.writeWatch (s : State) (m : Port) (v : BitVec 64) : State := s.updCfg m (fun c => { c with watch := v })

/-- Hold limit (R102). -/
def State.writeHoldLimit (s : State) (m : Port) (v : BitVec 64) : State :=
  s.updCfg m (fun c => { c with holdLimit := v.setWidth 8 })

/-- Hold action (R102, R104). -/
def State.writeHoldAction (s : State) (m : Port) (v : BitVec 64) : State :=
  s.updCfg m (fun c => { c with holdWaits := v == 1 })

/-- Level of an event kind (R162). -/
def State.writeLevel (s : State) (m : Port) (k : Fin 11) (v : BitVec 64) : State :=
  s.updCfg m (fun c => { c with levels := c.levels.set k (Fin.ofNat 8 v.toNat) })

/-- Apply a checked SETTING_WRITE (R172). -/
def State.writeItem (s : State) (i : Item) (m : Port) (v : BitVec 64) : State :=
  match i with
  | .repairPolicy => s.writeRepairPolicy v
  | .scrubGuarantee => s.writeGuarantee v
  | .scrubInterval => s.writeScrubInterval v
  | .scrubMask => s.writeScrubMask v
  | .cycleSource => s.writeCycleSource v
  | .cyclePeriod => s.writeCyclePeriod v
  | .poolLow => s.writePoolLow v
  | .viewSize => s.writeViewSize m v
  | .parity => s.writeParity m v
  | .stopBits => s.writeStopBits m v
  | .rateDivisor => s.writeDivisor m v
  | .gapCount => s.writeGapCount m v
  | .crcEnforcement => s.writeCrc m v
  | .linkEnable => s.writeLinkEnable m v
  | .watchSet => s.writeWatch m v
  | .holdLimit => s.writeHoldLimit m v
  | .holdAction => s.writeHoldAction m v
  | .level k => s.writeLevel m k v

end Sys2Proof.Machine
end

