-- ==== Sys2Proof/Machine/Frames.lean ====
section
/-! DEFINITION. The command engine's decoding of a request frame (R141 to R144, R178): steps 2 and 3 of the checks give a
`Request` or a refusal, step 4 is the role check. -/

namespace Sys2Proof.Machine

/-- A request that has passed steps 2 and 3 of R141, its fields in their ranges. `pairOk` is the comparison of a complement,
judged at step 5 (R142). -/
inductive Request where
  | probe
  | status
  | clear (flags : BitVec 6) (kinds : BitVec 11)
  | loaded
  | run (shape : RecordShape) (start : Half) (down : Bool) (todo : List PointAccess)
  | arm (g : GroupId) (now : Bool)
  | discard (g : GroupId)
  | groupStatus (g : GroupId)
  | cycle
  | descRead (point : Nat)
  | descWrite (point : Nat) (policy : LimitPolicy) (desc low high : Value)
  | groupWrite (g : GroupId) (mode : GroupMode) (arms : BitVec 4)
  | mapRead (target : Port) (page : Nat)
  | mapWrite (target : Port) (page : Nat) (entry : Value)
  | flush (target : Port)
  | settingRead (i : Item) (port : Port)
  | settingWrite (i : Item) (port : Port) (v : BitVec 64) (pairOk : Bool)
  | logRead
  | logClear
  | reset (scope : ResetScope) (pairOk : Bool)
  deriving DecidableEq, Repr

/-- The answer of a request that carries no parameter bytes (R142). -/
def noParams (r : Request) : List Byte → Option Request
  | [] => some r
  | _ => none

/-- CLEAR's fields: link flag bits 6-7, kind bits 2 and 4 (the derived kinds) and 11-15 must be 0 (R150, R178). -/
def decodeClear : List Byte → Option Request
  | [f, hi, lo] =>
    if f.extractLsb' 6 2 = 0 ∧ (half hi lo).extractLsb' 11 5 = 0 ∧ (half hi lo).getLsbD 2 = false
        ∧ (half hi lo).getLsbD 4 = false
    then some (.clear (f.extractLsb' 0 6) ((half hi lo).extractLsb' 0 11))
    else none
  | _ => none

/-- READ and READ_STAMPED: start and control; MASKED is refused (R144). -/
def decodeReadRun (shape : RecordShape) : List Byte → Option Request
  | [hi, lo, c] =>
    match decodeControl c with
    | none => none
    | some k =>
      if k.masked then none else some (.run shape (half hi lo) k.down (List.replicate k.count (.read k.prefer)))
  | _ => none

/-- The accesses of a STAGE or POST run: the mask first when MASKED, then one value a point (R144). -/
def writeAccesses (stage : Bool) (masked : Bool) (vs : List Value) : List PointAccess :=
  let one := fun (mask : Option Value) (v : Value) => if stage then PointAccess.stage v mask else PointAccess.post v mask
  match masked, vs with
  | true, m :: rest => rest.map (one (some m))
  | true, [] => []
  | false, _ => vs.map (one none)

/-- STAGE and POST: start, control, mask when MASKED, values; PREFER_STAGED is refused, and the length must be the one that
control calls for (R142, R144). -/
def decodeWriteRun (stage : Bool) : List Byte → Option Request
  | hi :: lo :: c :: rest =>
    match decodeControl c with
    | none => none
    | some k =>
      if k.prefer then none
      else if rest.length ≠ (if k.masked then 4 else 0) + 4 * k.count then none
      else some (.run .status (half hi lo) k.down (writeAccesses stage k.masked (values32 rest)))
  | _ => none

/-- ARM: group 1 to 63, form NEXT or NOW (R88, 13.3). -/
def decodeArm : List Byte → Option Request
  | [g, form] =>
    match groupOfNat g.toNat with
    | none => none
    | some g => if form = formNow then some (.arm g true) else if form = formNext then some (.arm g false) else none
  | _ => none

/-- A request whose one field is a group, 1 to 63 (R89, R91). -/
def decodeGroup (mk : GroupId → Request) : List Byte → Option Request
  | [g] => (groupOfNat g.toNat).map mk
  | _ => none

/-- GROUP_WRITE: group, mode, arm set with bits 4-7 clear (R90, R178). -/
def decodeGroupWrite : List Byte → Option Request
  | [g, m, a] =>
    match groupOfNat g.toNat with
    | none => none
    | some g =>
      if a.extractLsb' 4 4 ≠ 0 then none
      else if m = 0 then some (.groupWrite g .manual (a.extractLsb' 0 4))
      else if m = 1 then some (.groupWrite g .cyclic (a.extractLsb' 0 4))
      else none
  | _ => none

/-- A point number, 0 to 3839 (R45, R48). -/
def pointOf (hi lo : Byte) : Option Nat := if (half hi lo).toNat ≤ 3839 then some (half hi lo).toNat else none

/-- DESC_READ (R48). -/
def decodeDescRead : List Byte → Option Request
  | [hi, lo] => (pointOf hi lo).map .descRead
  | _ => none

/-- DESC_WRITE: the point and a record whose codes and group R31 admits (R45, R178). -/
def decodeDescWrite : List Byte → Option Request
  | [hi, lo, d3, d2, d1, d0, l3, l2, l1, l0, h3, h2, h1, h0] =>
    match pointOf hi lo, decodeDesc (value32 d3 d2 d1 d0) with
    | some p, some d =>
      some (.descWrite p d.policy (value32 d3 d2 d1 d0) (value32 l3 l2 l1 l0) (value32 h3 h2 h1 h0))
    | _, _ => none
  | _ => none

/-- A logical page, 0 to 63 (R59, R65). -/
def pageOf (b : Byte) : Option Nat := if b.toNat ≤ 63 then some b.toNat else none

/-- MAP_READ (R65). -/
def decodeMapRead : List Byte → Option Request
  | [t, l] =>
    match portOfByte t, pageOf l with
    | some t, some l => some (.mapRead t l)
    | _, _ => none
  | _ => none

/-- MAP_WRITE: a present entry's unused bits must be 0; an absent one is taken as 0 (R59, R178). -/
def decodeMapWrite : List Byte → Option Request
  | [t, l, e3, e2, e1, e0] =>
    match portOfByte t, pageOf l with
    | some t, some l =>
      if entryPresent (value32 e3 e2 e1 e0) && !entryReservedClear (value32 e3 e2 e1 e0) then none
      else some (.mapWrite t l (normalEntry (value32 e3 e2 e1 e0)))
    | _, _ => none
  | _ => none

/-- FLUSH (R64). -/
def decodeFlush : List Byte → Option Request
  | [t] => (portOfByte t).map .flush
  | _ => none

/-- SETTING_READ (R170). -/
def decodeSettingRead : List Byte → Option Request
  | [c, p] =>
    match itemOfCode c with
    | none => none
    | some i => (i.portOf p).map (.settingRead i)
  | _ => none

/-- SETTING_WRITE (R171): item, port, a value of the item's length in its range, and the complement of CRC enforcement. -/
def decodeSettingWrite : List Byte → Option Request
  | c :: p :: bs =>
    match itemOfCode c with
    | none => none
    | some i =>
      match i.portOf p with
      | none => none
      | some m =>
        if bs.length ≠ i.writeLen then none
        else if !i.inRange (valueOf (bs.take i.len)) then none
        else
          some (.settingWrite i m (valueOf (bs.take i.len))
            (bs.drop i.len == (if i = .crcEnforcement then (bs.take 1).map (fun b => ~~~b) else [])))
  | _ => none

/-- The scope that a byte names: 00h to 03h PORT n, 10h WARM (R154, 13.3). -/
def scopeOf (b : Byte) : Option ResetScope := if b = scopeWarm then some .warm else (portOfByte b).map .port

/-- RESET (R154). -/
def decodeReset : List Byte → Option Request
  | [sc, co] => (scopeOf sc).map (fun x => .reset x (co == ~~~sc))
  | _ => none

/-- The decoding of the parameters that an OP calls for; none when the OP is not one of 9.4 (R141 step 2). -/
def requestDecoder (op : Byte) : Option (List Byte → Option Request) :=
  if op = opProbe then some (noParams .probe)
  else if op = opStatus then some (noParams .status)
  else if op = opClear then some decodeClear
  else if op = opLoaded then some (noParams .loaded)
  else if op = opRead then some (decodeReadRun .read)
  else if op = opReadStamped then some (decodeReadRun .stamped)
  else if op = opStage then some (decodeWriteRun true)
  else if op = opPost then some (decodeWriteRun false)
  else if op = opArm then some decodeArm
  else if op = opDiscard then some (decodeGroup .discard)
  else if op = opGroupStatus then some (decodeGroup .groupStatus)
  else if op = opCycle then some (noParams .cycle)
  else if op = opDescRead then some decodeDescRead
  else if op = opDescWrite then some decodeDescWrite
  else if op = opGroupWrite then some decodeGroupWrite
  else if op = opMapRead then some decodeMapRead
  else if op = opMapWrite then some decodeMapWrite
  else if op = opFlush then some decodeFlush
  else if op = opSettingRead then some decodeSettingRead
  else if op = opSettingWrite then some decodeSettingWrite
  else if op = opLogRead then some (noParams .logRead)
  else if op = opLogClear then some (noParams .logClear)
  else if op = opReset then some decodeReset
  else none

/-! ## The layouts read the other way: the frame that carries a request (13.2, 13.3) -/

/-- The OP of a request (9.4). -/
def Request.op : Request → Byte
  | .probe => opProbe
  | .status => opStatus
  | .clear _ _ => opClear
  | .loaded => opLoaded
  | .run .read _ _ _ => opRead
  | .run .stamped _ _ _ => opReadStamped
  | .run .status _ _ (.post _ _ :: _) => opPost
  | .run .status _ _ _ => opStage
  | .arm _ _ => opArm
  | .discard _ => opDiscard
  | .groupStatus _ => opGroupStatus
  | .cycle => opCycle
  | .descRead _ => opDescRead
  | .descWrite _ _ _ _ _ => opDescWrite
  | .groupWrite _ _ _ => opGroupWrite
  | .mapRead _ _ => opMapRead
  | .mapWrite _ _ _ => opMapWrite
  | .flush _ => opFlush
  | .settingRead _ _ => opSettingRead
  | .settingWrite _ _ _ _ => opSettingWrite
  | .logRead => opLogRead
  | .logClear => opLogClear
  | .reset _ _ => opReset

/-- The value that a STAGE or POST access sends. -/
def PointAccess.sent : PointAccess → List Byte
  | .read _ => []
  | .stage v _ => valueBytes v
  | .post v _ => valueBytes v

/-- The mask of an access, when its run is MASKED. -/
def PointAccess.mask : PointAccess → Option Value
  | .read _ => none
  | .stage _ m => m
  | .post _ m => m

/-- PREFER_STAGED of an access. -/
def PointAccess.prefers : PointAccess → Bool
  | .read prefer => prefer
  | _ => false

/-- The control byte of a run (13.2). -/
def controlByte (down : Bool) (todo : List PointAccess) : Byte :=
  BitVec.ofNat 8 (todo.length - 1) ||| (if down then 0x10 else 0)
    ||| (if (todo.head?.bind PointAccess.mask).isSome then 0x20 else 0)
    ||| (if todo.head?.any PointAccess.prefers then 0x40 else 0)

/-- The parameters of a run: start, control, mask when MASKED, values (13.2). -/
def runParams (start : Half) (down : Bool) (todo : List PointAccess) : List Byte :=
  halfBytes start ++ [controlByte down todo]
    ++ (match todo.head?.bind PointAccess.mask with
        | some m => valueBytes m
        | none => [])
    ++ todo.flatMap PointAccess.sent

/-- A value in an item's length, most significant byte first (11.2). -/
def itemValueBytes (i : Item) (v : BitVec 64) : List Byte := (bytes64 v).drop (8 - i.len)

/-- The byte of a reset's scope (13.3). -/
def scopeByte : ResetScope → Byte
  | .warm => scopeWarm
  | .port m => BitVec.ofNat 8 m.val

/-- The complement byte that follows a pair-checked value, or one that does not match it. -/
def pairByte (value : Byte) (ok : Bool) : Byte := if ok then ~~~value else value

/-- The parameter bytes of a request (13.3). -/
def Request.params : Request → List Byte
  | .probe | .status | .loaded | .cycle | .logRead | .logClear => []
  | .clear flags kinds => flags.setWidth 8 :: halfBytes (kinds.setWidth 16)
  | .run _ start down todo => runParams start down todo
  | .arm g now => [BitVec.ofNat 8 g.num, if now then formNow else formNext]
  | .discard g => [BitVec.ofNat 8 g.num]
  | .groupStatus g => [BitVec.ofNat 8 g.num]
  | .descRead p => natBytes2 p
  | .descWrite p _ desc low high => natBytes2 p ++ valueBytes desc ++ valueBytes low ++ valueBytes high
  | .groupWrite g mode arms =>
    [BitVec.ofNat 8 g.num, (match mode with
      | .manual => 0
      | .cyclic => 1), arms.setWidth 8]
  | .mapRead t l => [BitVec.ofNat 8 t.val, BitVec.ofNat 8 l]
  | .mapWrite t l e => BitVec.ofNat 8 t.val :: BitVec.ofNat 8 l :: valueBytes e
  | .flush t => [BitVec.ofNat 8 t.val]
  | .settingRead i m => [i.code, BitVec.ofNat 8 m.val]
  | .settingWrite i m v ok =>
    i.code :: BitVec.ofNat 8 m.val :: itemValueBytes i v
      ++ (if i = .crcEnforcement then [pairByte (v.setWidth 8) ok] else [])
  | .reset scope ok => [scopeByte scope, pairByte (scopeByte scope) ok]

/-- The accesses of a run are of one kind, with one mask and one preference, 1 to 16 of them (R144). -/
def runWf (shape : RecordShape) (todo : List PointAccess) : Bool :=
  decide (1 ≤ todo.length ∧ todo.length ≤ 16) &&
    (match shape, todo with
      | .read, .read p :: rest => rest.all (fun a => a == .read p)
      | .stamped, .read p :: rest => rest.all (fun a => a == .read p)
      | .status, .stage _ m :: rest =>
        rest.all (fun a => match a with
          | .stage _ m' => m' == m
          | _ => false)
      | .status, .post _ m :: rest =>
        rest.all (fun a => match a with
          | .post _ m' => m' == m
          | _ => false)
      | _, _ => false)

/-- The fields of a request lie in the ranges that step 3 of R141 asks for (R142, R178). -/
def Request.wf : Request → Bool
  | .clear _ kinds => !kinds.getLsbD 2 && !kinds.getLsbD 4
  | .run shape _ _ todo => runWf shape todo
  | .descRead p => decide (p ≤ 3839)
  | .descWrite p policy desc _ _ => decide (p ≤ 3839) && (decodeDesc desc).any (fun d => d.policy == policy)
  | .mapRead _ l => decide (l ≤ 63)
  | .mapWrite _ l e => decide (l ≤ 63) && (if entryPresent e then entryReservedClear e else e == 0)
  | .settingRead i m => i.kind != .device || m == 0
  | .settingWrite i m v ok =>
    (i.kind != .device || m == 0) && i.inRange v && decide (v.toNat < 2 ^ (8 * i.len)) && (ok || i == .crcEnforcement)
  | _ => true

/-- The role check (R143): may the sending port n, a supervisor or a member, make this request? -/
def roleAllows (supervisor : Bool) (n : Port) : Request → Bool
  | .cycle => supervisor
  | .descWrite _ _ _ _ _ => supervisor
  | .groupWrite _ _ _ => supervisor
  | .mapWrite _ _ _ => supervisor
  | .logClear => supervisor
  | .reset _ _ => supervisor
  | .flush t => supervisor || t == n
  | .settingWrite i m _ _ =>
    match i.kind with
    | .ownPort => m == n
    | _ => supervisor
  | _ => true

/-- Steps 1 to 4 of the request checks (R141). -/
def State.checkRequest (s : State) (n : Port) (op : Byte) (params : List Byte) : Except FrameStatus Request :=
  if !s.ready then .error .notReady
  else
    match requestDecoder op with
    | none => .error .badOp
    | some dec =>
      match dec params with
      | none => .error .badParam
      | some r => if roleAllows (s.port n).supervisor n r then .ok r else .error .role

end Sys2Proof.Machine
end

