-- ==== Sys2Proof/Machine/Requests.lean ====
section
/-! DEFINITION. What each request does once it has passed steps 1 to 4 of R141, and how a command engine takes requests
from its queue (R139). -/

namespace Sys2Proof.Machine

/-! ## Bodies of OK responses (13.3, 13.4) -/

/-- PROBE: vendor, part, revision, port, role (R149). -/
def State.probeBody (s : State) (n : Port) : List Byte :=
  Config.vendor :: halfBytes Config.part
    ++ [Config.revision, BitVec.ofNat 8 n.val, flagByte (s.port n).supervisor]

/-- The number of groups in a loaded set (R161). -/
def loadedGroups (v : BitVec 64) : List GroupId := allGroups.filter (fun g => v.getLsbD g.num)

/-- The start record of STATUS (R176, 13.4). -/
def State.startRecord (s : State) : List Byte :=
  (match s.startCause with
    | .cold => (0 : Byte)
    | .warm => 1) ::
  (match s.torn with
    | none => (0 : Byte) :: natBytes2 0 ++ natBytes2 0
    | some t => BitVec.ofNat 8 t.group.num :: natBytes2 t.transferred ++ natBytes2 t.untransferred)

/-- The load engine's state in STATUS: 0 for IDLE, g for LOADING(g) (13.4). -/
def State.engineByte (s : State) : Byte :=
  match s.engine with
  | none => 0
  | some g => BitVec.ofNat 8 g.num

/-- STATUS (R149, 13.4). -/
def State.statusBody (s : State) (n : Port) : List Byte :=
  (s.port n).linkErrors.setWidth 8 :: halfBytes ((s.port n).pendingSet.setWidth 16)
    ++ [BitVec.ofNat 8 (s.port n).topEvent, BitVec.ofNat 8 (loadedGroups (s.port n).loaded).length]
    ++ s.startRecord ++ halfBytes s.cycleNumber ++ natBytes2 s.freeCount
    ++ [s.engineByte, BitVec.ofNat 8 s.loadQueue.length, flagByte s.log.updated]

/-- LOADED: the count, then the groups in ascending order (R150, 13.4). -/
def State.loadedBody (s : State) (n : Port) : List Byte :=
  BitVec.ofNat 8 (loadedGroups (s.port n).loaded).length
    :: (loadedGroups (s.port n).loaded).map (fun g => BitVec.ofNat 8 g.num)

/-- The group mode's code (13.3). -/
def modeCode : GroupMode → Byte
  | .manual => 0
  | .cyclic => 1

/-- The group state's code (13.4). -/
def stateCode : GroupState → Byte
  | .empty => 0
  | .staging => 1
  | .armed => 2
  | .queued => 3
  | .loading => 4

/-- A group's place in the load queue, 1 for the head, 0 when it is not there (R91). -/
def State.queuePlace (s : State) (g : GroupId) : Nat := if g ∈ s.loadQueue then s.loadQueue.idxOf g + 1 else 0

/-- The last-load fields of GROUP_STATUS: result, cycle, transferred, skipped, first skipped point (13.4). -/
def lastLoadBytes : Option LastLoad → List Byte
  | none => (0 : Byte) :: natBytes2 0 ++ natBytes2 0 ++ natBytes2 0 ++ halfBytes noCycle
  | some l =>
    (if l.partialLoad then (2 : Byte) else 1) :: halfBytes l.cycle ++ natBytes2 l.transferred ++ natBytes2 l.skipped
      ++ (match l.firstSkipped with
          | none => halfBytes noCycle
          | some p => natBytes2 p)

/-- GROUP_STATUS (R91, 13.4). -/
def State.groupBody (s : State) (g : GroupId) : List Byte :=
  [BitVec.ofNat 8 g.num, modeCode (s.group g).mode, (s.group g).armSet.setWidth 8, stateCode (s.group g).state]
    ++ natBytes2 (s.group g).count ++ [BitVec.ofNat 8 (s.queuePlace g)] ++ lastLoadBytes (s.group g).lastLoad

/-- The code of a finding's source in a log entry (13.4). -/
def sourceBits : Requester → Byte
  | .ce n => BitVec.ofNat 8 n.val
  | .load => 4
  | .scrub => 5

/-- A log entry's four bytes; zeros when absent (13.4). -/
def logBytes : Option LogEntry → List Byte
  | none => [0, 0, 0, 0]
  | some e => (1 : Byte) :: natBytes2 e.slot ++ [BitVec.ofNat 8 (wordIndex e.word) ||| (sourceBits e.source <<< 4)]

/-- LOG_READ: updated flag, corrected entry, uncorrectable entry (R119, 13.4). -/
def State.logBody (s : State) : List Byte :=
  flagByte s.log.updated :: logBytes s.log.corrected ++ logBytes s.log.uncorrectable

/-! ## Requests carried out whole -/

/-- CLEAR (R150). -/
def State.clearEvents (s : State) (n : Port) (flags : BitVec 6) (kinds : BitVec 11) : State :=
  s.updPort n (fun p => { p with linkErrors := p.linkErrors &&& ~~~flags, sticky := p.sticky &&& ~~~kinds })

/-- LOADED empties the loaded set (R150). -/
def State.emptyLoaded (s : State) (n : Port) : State := s.updPort n (fun p => { p with loaded := 0 })

/-- ARM (R87, R88): its frame status and effect. -/
def State.arm (s : State) (n : Port) (g : GroupId) (now : Bool) : FrameStatus × State :=
  if !(s.group g).armSet.getLsbD n.val then (.denied, s)
  else
    match (s.group g).state with
    | .empty => (.empty, s)
    | .queued => (.busy, s)
    | .loading => (.busy, s)
    | .staging =>
      if now then (.ok, s.armNow g)
      else
        match (s.group g).mode with
        | .manual => (.ok, s.updGroup g (fun r => { r with state := .armed }))
        | .cyclic => (.ok, s)
    | .armed => if now then (.ok, s.armNow g) else (.ok, s)

/-- DISCARD (R87, R89). -/
def State.discardRequest (s : State) (n : Port) (g : GroupId) : FrameStatus × State :=
  if !(s.group g).armSet.getLsbD n.val then (.denied, s)
  else
    match (s.group g).state with
    | .empty => (.ok, s)
    | .loading => (.busy, s)
    | .staging => (.ok, s.discard g)
    | .armed => (.ok, s.discard g)
    | .queued => (.ok, s.discard g)

/-- GROUP_WRITE (R90). -/
def State.groupWrite (s : State) (g : GroupId) (mode : GroupMode) (arms : BitVec 4) : FrameStatus × State :=
  match (s.group g).state with
  | .empty => (.ok, s.updGroup g (fun r => { r with mode := mode, armSet := arms }))
  | _ => (.busy, s)

/-- FLUSH (R64). -/
def State.flush (s : State) (t : Port) : State := s.updPort t (fun p => { p with cache := [] })

/-- LOG_READ clears the updated flag (R119). -/
def State.logReadDone (s : State) : State := { s with log := { s.log with updated := false } }

/-- LOG_CLEAR (R120). -/
def State.logClear (s : State) : State := { s with log := { s.log with uncorrectable := none, updated := false } }

/-- CEn asks for the one operation of a descriptor or map request and is WAITING for it (R152). -/
def State.askSingle (s : State) (n : Port) (tag : Byte) (slot : Nat) (act : Act) : State :=
  (s.setEngine n (.waiting (.single tag))).place { who := .ce n, slot := slot, act := act, dropped := false }

/-- RESET that passes its checks: answered OK, and CEn waits for the response to leave (R154). -/
def State.awaitReset (s : State) (n : Port) (tag : Byte) (scope : ResetScope) : State :=
  match (s.port n).reservedBuf with
  | none => s
  | some k => (s.respond n tag .ok []).setEngine n (.resetWait k scope)

/-- Carry out a request that has passed steps 1 to 4 of R141, with the refusals of step 5 (R151 to R154). -/
def State.runRequest (s : State) (n : Port) (tag : Byte) : Request → State
  | .probe => s.respond n tag .ok (s.probeBody n)
  | .status => s.respond n tag .ok (s.statusBody n)
  | .clear flags kinds => (s.clearEvents n flags kinds).respond n tag .ok []
  | .loaded => (s.emptyLoaded n).respond n tag .ok (s.loadedBody n)
  | .run shape start down todo =>
    s.goOn n { tag := tag, shape := shape, down := down, point := start, todo := todo, records := [], corrected := false }
  | .arm g now => (s.arm n g now).2.respond n tag (s.arm n g now).1 []
  | .discard g => (s.discardRequest n g).2.respond n tag (s.discardRequest n g).1 []
  | .groupStatus g => s.respond n tag .ok (s.groupBody g)
  | .cycle => s.cycleEvent.respond n tag .ok (halfBytes s.cycleEvent.cycleNumber)
  | .descRead p => s.askSingle n tag p .descRead
  | .descWrite p policy desc low high =>
    if limitsCrossed policy low high then s.respond n tag .range [] else s.askSingle n tag p (.descWrite desc low high)
  | .groupWrite g mode arms => (s.groupWrite g mode arms).2.respond n tag (s.groupWrite g mode arms).1 []
  | .mapRead t l => s.askSingle n tag (mapSlot t l) .mapRead
  | .mapWrite t l e =>
    if entryPresent e && decide (240 ≤ (e.extractLsb' 0 8).toNat) then s.respond n tag .range []
    else s.askSingle n tag (mapSlot t l) (.mapWrite t l e)
  | .flush t => (s.flush t).respond n tag .ok []
  | .settingRead i m => s.respond n tag .ok (i.code :: BitVec.ofNat 8 m.val :: s.itemBytes m i)
  | .settingWrite i m v pairOk =>
    if pairOk then (s.writeItem i m v).respond n tag .ok [] else s.respond n tag .pairFail []
  | .logRead => s.logReadDone.respond n tag .ok s.logBody
  | .logClear => s.logClear.respond n tag .ok []
  | .reset scope pairOk => if pairOk then s.awaitReset n tag scope else s.respond n tag .pairFail []

/-- Take a frame into execution: the checks of R141, then the request. A frame is TAG, OP and parameters; the assembler
passes none shorter (R124). -/
def State.runFrame (s : State) (n : Port) : List Byte → State
  | tag :: op :: params =>
    match s.checkRequest n op params with
    | .error st => s.respond n tag st []
    | .ok r => s.runRequest n tag r
  | _ => s

/-! ## Taking requests (R139) -/

/-- The frame leaves the queue and CEn reserves a FREE buffer (R131, R139). -/
def State.takeHead (s : State) (n : Port) (k : BufId) (rest : List (List Byte)) : State :=
  s.updPort n (fun p => { p.setBuf k .reserved with queue := rest })

/-- CEn takes the head of its queue while it is IDLE, the queue holds a frame and a buffer is FREE (R139), one after another
within the event; the fuel is the number of frames that wait. -/
def State.serveFuel (n : Port) : Nat → State → State
  | 0, s => s
  | k + 1, s =>
    match (s.port n).ce, (s.port n).queue, (s.port n).freeBuf with
    | .idle, f :: rest, some b => State.serveFuel n k ((s.takeHead n b rest).runFrame n f)
    | _, _, _ => s

/-- CEn takes what it can take (R139). -/
def State.serve (s : State) (n : Port) : State := State.serveFuel n (s.port n).queue.length s

/-- A passed frame joins the queue of four, or is dropped with QUEUE_FULL (R129). -/
def PortState.enqueue (f : List Byte) (p : PortState) : PortState :=
  if p.queue.length ≤ 3 then { p with queue := p.queue ++ [f] } else p.setErrors flagQueueFull

/-- A frame passes its check: it is queued or dropped, and CEn takes what it can (R128, R129, R139). -/
def State.passFrame (s : State) (n : Port) (f : List Byte) : State := (s.updPort n (PortState.enqueue f)).serve n

/-- The part and link n take characters: RESET is high (R173) and the link is enabled (R135). -/
def State.listens (s : State) (n : Port) : Bool := !s.resetLow && (s.port n).cfg.linkOn

/-- The last character of a frame has been judged good: the assembler hunts, its gap timer stopped (R124), and the frame
passes (R128). -/
def State.goodFrame (s : State) (n : Port) (f : List Byte) : State :=
  (s.updPort n (fun p => { p with rx := .looking, asm := .hunt, gapTimer := none })).passFrame n f

/-- A request row (log 1): the frame arrives whole on link n and passes; nothing where the link takes no characters; no
command of the part where no frame holds it (log 10). -/
def sendRequest (n : Port) (f : List Byte) (s : State) : Host.Outcome State Fault Refusal :=
  if f.length ≤ 80 then
    if s.listens n then .next (s.goodFrame n f) else .next s
  else .refused .frameTooLong

end Sys2Proof.Machine
end

