-- ==== Sys2Proof/Machine/Completions.lean ====
section
/-! DEFINITION. The completions of bank operations (R7 to R10): what each reads, checks and writes, the repair write-backs
and findings, the bank's grant decision (R22), and what the requester does with the result. -/

namespace Sys2Proof.Machine

/-! ## The descriptor read first (R9, R36) -/

/-- What a read of a DESC word tells. -/
inductive DescRead where
  | unreadable
  | undefinedCode
  | fields (d : Descriptor)
  deriving DecidableEq, Repr

/-- Read the descriptor of a slot. -/
def State.readDesc (s : State) (slot : Nat) : DescRead :=
  match (s.word slot .desc).yield with
  | none => .unreadable
  | some v =>
    match decodeDesc v with
    | none => .undefinedCode
    | some d => .fields d

/-- The point's kind as read; UNUSED's group, 0, when DESC could not be read (R40). -/
def State.kindOf (s : State) (slot : Nat) : PointKind :=
  match s.readDesc slot with
  | .fields d => d.kind
  | _ => .unused

/-! ## The common end of a completion -/

/-- Repair write-backs and findings of an operation by a command engine or the load engine, then the bank's grant decision
(R6, R10, R22). `before` is the state that was read, `s` the state after the operation's own effects. -/
def State.endCompletion (before s : State) (b : BankId) (src : Requester) (slot : Nat) (reads : List WordName) : State :=
  ((s.repairOnAccess slot reads).takeFindings (before.findings src slot reads)).grantNext b

/-! ## READ (R36 to R40, R102) -/

/-- What a READ operation comes to, once its descriptor is read (R36). -/
inductive ReadPlan where
  | refuse (st : PointStatus)
  | hold (g : GroupId)
  | word (w : WordName)
  deriving DecidableEq, Repr

/-- Steps 1, 2, 5 and 6 of R36 for a READ, with R39's choice of word. -/
def State.planRead (s : State) (slot : Nat) (prefer : Bool) : ReadPlan :=
  match s.readDesc slot with
  | .unreadable => .refuse .fault
  | .undefinedCode => .refuse .fault
  | .fields d =>
    match d.kind with
    | .unused => .refuse .vacant
    | .reading => .word .live
    | .constant => .word .live
    | .setpoint g =>
      if (s.group g).state = .loading then .hold g
      else if prefer && s.marked slot then .word .staged
      else .word .live

/-- The words that a READ reads (R8). -/
def ReadPlan.reads : ReadPlan → List WordName
  | .word w => [.desc, w]
  | _ => [.desc]

/-- The status and value of a word read for a READ (R38, R39): POISONED without a value. -/
def readWordResult (x : Stored) : PointStatus × Value :=
  match x.yield with
  | some v => (.ok, v)
  | none => (.poisoned, noValue)

/-- The result of a READ that begins no hold (R37 to R40, R147). -/
def State.readResult (s : State) (slot : Nat) (plan : ReadPlan) (corrected : Bool) : PointResult :=
  match plan with
  | .refuse st =>
    { status := st, corrected := corrected, fromStaged := false, value := noValue, group := (s.kindOf slot).groupNum,
      cycle := s.lastCycle (s.kindOf slot) }
  | .hold _ => .refused .fault corrected
  | .word w =>
    { status := (readWordResult (s.word slot w)).1, corrected := corrected, fromStaged := w == .staged,
      value := (readWordResult (s.word slot w)).2, group := (s.kindOf slot).groupNum, cycle := s.lastCycle (s.kindOf slot) }

/-- CEn enters HOLDING for g (R102): run, slot, flag, the last-load cycle read at this completion, and the hold timer. -/
def State.beginHold (s : State) (n : Port) (r : PointRun) (g : GroupId) (slot : Nat) (cycle : Half) : State :=
  s.setEngine n
    (.holding { run := r, group := g, slot := slot, cycle := cycle, timer := some (s.port n).cfg.holdLimit.toNat })

/-- What CEn does with the result of its READ (R102, R145). -/
def State.readHanded (before s : State) (n : Port) (slot : Nat) (plan : ReadPlan) : State :=
  match (s.port n).ce with
  | .waiting (.access r _) =>
    let corr := r.corrected || before.anyCorrectable slot plan.reads
    match plan with
    | .hold g => s.beginHold n { r with corrected := corr } g slot (before.lastCycle (.setpoint g))
    | _ => (s.settlePoint n r (before.readResult slot plan corr)).serve n
  | _ => s

/-- The completion of a READ of CEn in bank b. A dropped result goes nowhere (R17), here and below, and CEn may place what it
held back (R19). -/
def State.readDone (s : State) (b : BankId) (n : Port) (slot : Nat) (prefer dropped : Bool) : State :=
  let s1 := s.endCompletion s b (.ce n) slot (s.planRead slot prefer).reads
  if dropped then s1.release (.ce n) else s.readHanded s1 n slot (s.planRead slot prefer)

/-! ## STAGE and POST (R33 to R36, R41 to R44) -/

/-- Steps 1 to 4 of R36 for a STAGE of port n: a refusal, or the group and the limit policy. -/
def State.stageGate (s : State) (n : Port) (slot : Nat) : Except PointStatus (GroupId × LimitPolicy) :=
  match s.readDesc slot with
  | .unreadable => .error .fault
  | .undefinedCode => .error .fault
  | .fields d =>
    match d.kind with
    | .unused => .error .vacant
    | .reading => .error .denied
    | .constant => .error .denied
    | .setpoint g => if d.writers.getLsbD n.val then .ok (g, d.policy) else .error .denied

/-- Steps 1 to 4 of R36 for a POST of port n: a refusal, or the limit policy; a CONSTANT is not held to limits (R42). -/
def State.postGate (s : State) (n : Port) (slot : Nat) : Except PointStatus LimitPolicy :=
  match s.readDesc slot with
  | .unreadable => .error .fault
  | .undefinedCode => .error .fault
  | .fields d =>
    match d.kind with
    | .unused => .error .vacant
    | .setpoint _ => .error .denied
    | .reading => if d.writers.getLsbD n.val then .ok d.policy else .error .denied
    | .constant => if (s.port n).supervisor then .ok .none else .error .denied

/-- The words read past DESC: LOW and HIGH when a limit check applies, the base word of a masked run (R36, R43). -/
def writeReads (policy : LimitPolicy) (mask : Option Value) (base : WordName) : List WordName :=
  .desc :: (match policy with
    | .none => []
    | _ => [.low, .high]) ++ (match mask with
    | none => []
    | some _ => [base])

/-- The limits as read; a limit check that cannot be made has none (R35). Under policy NONE they are not looked at. -/
def State.limitsRead (s : State) (slot : Nat) (policy : LimitPolicy) : Option (Value × Value) :=
  match policy with
  | .none => some (0, 0)
  | _ =>
    match (s.word slot .low).yield, (s.word slot .high).yield with
    | some lo, some hi => some (lo, hi)
    | _, _ => none

/-- The value to be checked: the value sent, or the merged value of a masked run; none when the base has no value (R43). -/
def State.valueToCheck (s : State) (slot : Nat) (base : WordName) (v : Value) (mask : Option Value) : Option Value :=
  match mask with
  | none => some v
  | some m => (s.word slot base).yield.map (mergeValue m v)

/-- Steps 7 to 9, 11 and 12 of R36: a refusal, or the value to write with whether it was clamped. -/
def State.settleWrite (s : State) (slot : Nat) (policy : LimitPolicy) (base : WordName) (v : Value) (mask : Option Value) :
    Except PointStatus (Value × Bool) :=
  match s.limitsRead slot policy with
  | none => .error .fault
  | some (lo, hi) =>
    match s.valueToCheck slot base v mask with
    | none => .error .poisoned
    | some x =>
      match checkLimits policy lo hi x with
      | .outside => .error .range
      | .written y => .ok (y, false)
      | .clamped y => .ok (y, true)

/-- What a STAGE or POST comes to: its status, the words it read, and the state after its own effects. -/
structure WriteEffect where
  status : PointStatus
  reads : List WordName
  state : State

/-- The status of a value written (R36 steps 11 and 12). -/
def writtenStatus (clamped : Bool) : PointStatus := if clamped then .clamped else .ok

/-- The base word of a masked STAGE: STAGED on a marked point, else LIVE (R43). -/
def State.stageBase (s : State) (slot : Nat) : WordName := if s.marked slot then .staged else .live

/-- A STAGE of port n on a slot: checks, admission, and the write of STAGED (R41). -/
def State.stageEffect (s : State) (n : Port) (slot : Nat) (v : Value) (mask : Option Value) : WriteEffect :=
  match s.stageGate n slot with
  | .error st => { status := st, reads := [.desc], state := s }
  | .ok (g, policy) =>
    let reads := writeReads policy mask (s.stageBase slot)
    match s.settleWrite slot policy (s.stageBase slot) v mask with
    | .error st => { status := st, reads := reads, state := s }
    | .ok (y, clamped) =>
      match s.admission slot g with
      | .busy => { status := .busy, reads := reads, state := s }
      | .poolFull => { status := .poolFull, reads := reads, state := s }
      | .restage =>
        { status := writtenStatus clamped, reads := reads, state := (s.restage n slot).writeWord slot .staged y }
      | .newStage =>
        { status := writtenStatus clamped, reads := reads, state := (s.newStage n slot g).writeWord slot .staged y }

/-- A POST of port n on a slot: checks and the write of LIVE (R42). -/
def State.postEffect (s : State) (n : Port) (slot : Nat) (v : Value) (mask : Option Value) : WriteEffect :=
  match s.postGate n slot with
  | .error st => { status := st, reads := [.desc], state := s }
  | .ok policy =>
    let reads := writeReads policy mask .live
    match s.settleWrite slot policy .live v mask with
    | .error st => { status := st, reads := reads, state := s }
    | .ok (y, clamped) => { status := writtenStatus clamped, reads := reads, state := s.writeWord slot .live y }

/-- The result of a STAGE or POST (R37): a status with CORRECTED, and no value. -/
def writeResult (st : PointStatus) (corrected : Bool) : PointResult := .refused st corrected

/-- What CEn does with the result of its STAGE or POST (R145). -/
def State.writeHanded (before s : State) (n : Port) (slot : Nat) (st : PointStatus) (reads : List WordName) : State :=
  match (s.port n).ce with
  | .waiting (.access r _) =>
    (s.settlePoint n r (writeResult st (r.corrected || before.anyCorrectable slot reads))).serve n
  | _ => s

/-- The completion of a STAGE or POST of CEn in bank b, with its effect. -/
def State.writeDone (s : State) (b : BankId) (n : Port) (slot : Nat) (dropped : Bool) (x : WriteEffect) : State :=
  let s1 := s.endCompletion x.state b (.ce n) slot x.reads
  if dropped then s1.release (.ce n) else s.writeHanded s1 n slot x.status x.reads

/-! ## Descriptor and map operations (R46, R48, R55, R60, R65) -/

/-- The one operation of a descriptor or map request hands its answer to CEn, which completes the response and takes what it
can (R152). -/
def State.singleHanded (s : State) (n : Port) (dropped : Bool) (st : FrameStatus) (body : List Byte) : State :=
  if dropped then s.release (.ce n)
  else
    match (s.port n).ce with
    | .waiting (.single tag) => (s.respond n tag st body).serve n
    | _ => s

/-- The stage mark byte (13.4). -/
def State.markByte (s : State) (p : Nat) : Byte :=
  match s.markOf p with
  | none => 0
  | some (_, e) => 0x80 ||| BitVec.ofNat 8 e.stager.val

/-- DESC_READ's answer (R48): the record and the mark, or FAULT when any of the three words has no value. -/
def State.descAnswer (s : State) (slot : Nat) : FrameStatus × List Byte :=
  match (s.word slot .desc).yield, (s.word slot .low).yield, (s.word slot .high).yield with
  | some d, some l, some h => (.ok, valueBytes d ++ valueBytes l ++ valueBytes h ++ [s.markByte slot])
  | _, _, _ => (.fault, [])

/-- The completion of a DESC read (R48). -/
def State.descReadDone (s : State) (b : BankId) (n : Port) (slot : Nat) (dropped : Bool) : State :=
  (s.endCompletion s b (.ce n) slot [.desc, .low, .high]).singleHanded n dropped (s.descAnswer slot).1 (s.descAnswer slot).2

/-- The descriptor record is written, each word CLEAN (R46 step 3). -/
def State.writeRecord (s : State) (slot : Nat) (desc low high : Value) : State :=
  ((s.writeWord slot .desc desc).writeWord slot .low low).writeWord slot .high high

/-- DESC_WRITE against the point's stage (R46): BUSY while its group loads, else the stage is removed and the record
written. -/
def State.descWriteEffect (s : State) (slot : Nat) (desc low high : Value) : FrameStatus × State :=
  match s.markOf slot with
  | none => (.ok, s.writeRecord slot desc low high)
  | some (g, e) =>
    if (s.group g).state = .loading then (.busy, s) else (.ok, (s.removeStage g e).writeRecord slot desc low high)

/-- The completion of a DESC write (R46). -/
def State.descWriteDone (s : State) (b : BankId) (n : Port) (slot : Nat) (desc low high : Value) (dropped : Bool) : State :=
  ((s.descWriteEffect slot desc low high).2.grantNext b).singleHanded n dropped (s.descWriteEffect slot desc low high).1 []

/-- The insertion of R56: only for a page below the view size as it stands at the completion, and only where no view size at or
below the page was written while the fill was in flight (R63). -/
def State.insertFill (s : State) (n : Port) (l : Nat) (inserts : Bool) (e : MapEntry) : State :=
  if inserts ∧ l < (s.port n).cfg.viewSize.toNat then
    s.updPort n (PortState.insertEntry { logical := l, page := e.page, rights := e.rights })
  else s

/-- What CEn does with the map word its fill has read (R55). -/
def State.fillHanded (s : State) (n : Port) (l : Nat) (inserts : Bool) (x : Stored) : State :=
  match (s.port n).ce with
  | .waiting (.fill r _) =>
    let r1 := { r with corrected := r.corrected || x.isCorrectable }
    match x.yield with
    | none => (s.settlePoint n r1 (.refused .mapFault r1.corrected)).serve n
    | some v =>
      match decodeEntry v with
      | none => (s.settlePoint n r1 (.refused .unmapped r1.corrected)).serve n
      | some e => ((s.insertFill n l inserts e).useEntry n r1 e).serve n
  | _ => s

/-- The completion of a translation fill (R55). -/
def State.mapFillDone (s : State) (b : BankId) (n : Port) (slot l : Nat) (inserts dropped : Bool) :
    State :=
  let s1 := s.endCompletion s b (.ce n) slot [.live]
  if dropped then s1.release (.ce n) else s1.fillHanded n l inserts (s.word slot .live)

/-- MAP_READ's answer (R65). -/
def mapAnswer (x : Stored) : FrameStatus × List Byte :=
  match x.yield with
  | some v => (.ok, valueBytes v)
  | none => (.fault, [])

/-- The completion of a MAP read (R65). -/
def State.mapReadDone (s : State) (b : BankId) (n : Port) (slot : Nat) (dropped : Bool) : State :=
  (s.endCompletion s b (.ce n) slot [.live]).singleHanded n dropped (mapAnswer (s.word slot .live)).1
    (mapAnswer (s.word slot .live)).2

/-- The completion of a MAP write (R60): the map word written CLEAN, the target's cached entry removed. -/
def State.mapWriteDone (s : State) (b : BankId) (n : Port) (slot : Nat) (t : Port) (l : Nat) (e : Value) (dropped : Bool) :
    State :=
  (((s.writeWord slot .live e).updPort t (PortState.invalidate l)).grantNext b).singleHanded n dropped .ok []

/-! ## TRANSFER, SCRUB, FILL (R99, R111, R13) -/

/-- LIVE after a transfer: STAGED's value, or LIVE as it was when STAGED has none (R99). -/
def State.copyStaged (s : State) (slot : Nat) : State :=
  match (s.word slot .staged).yield with
  | some v => s.writeWord slot .live v
  | none => s

/-- The completion of a TRANSFER (R99, R100): the load engine takes the result, the bank decides its next grant, and only
then do the requests that the completion brings arrive (R22). -/
def State.transferDone (s : State) (b : BankId) (slot : Nat) : State :=
  let s1 := ((s.copyStaged slot).repairOnAccess slot [.staged]).takeFindings (s.findings .load slot [.staged])
  let x := s1.transferred slot (s.word slot .staged).yield.isNone
  (x.1.grantNext b).placeAll x.2

/-- The patrol position after a SCRUB of a slot; SCRUB_PASS at 4095 (R111). -/
def State.patrolNext (s : State) (slot : Nat) : State :=
  if slot < 4095 then { s with patrol := slot + 1 } else { s with patrol := 0 }.raiseAll .scrubPass

/-- The completion of a SCRUB (R111). -/
def State.scrubDone (s : State) (b : BankId) (slot : Nat) : State :=
  (((s.repairWords slot slotWords).takeFindings (s.findings .scrub slot slotWords)).patrolNext slot).grantNext b

/-- All five words of a slot with the fill values of R2. -/
def State.fillSlot (s : State) (slot : Nat) : State := slotWords.foldl (fun s w => s.putWord slot w fillWord) s

/-- The patrol starts when the last bank has left INIT (R14, R109). -/
def State.startPatrol (s : State) : State :=
  if s.ready then { s with patrol := 0, scrubTimer := s.freshScrubTimer } else s

/-- The completion of a FILL in bank b (R13): the row is written, the position advances, and after row 1023 the bank leaves
INIT with a grant decision (R22). -/
def State.fillDone (s : State) (b : BankId) : State :=
  let row := (s.bank b).fillRow
  let s1 := (s.fillSlot (4 * row + b.val)).updBank b (fun x => { x with fillRow := row + 1 })
  if row < 1023 then s1 else (s1.grantNext b).startPatrol

/-! ## The rows. A completion whose operation is not in flight in bank b does not arise (log 3). -/

/-- The step, unless the descriptor of the slot has an undefined code (log 9). -/
def unlessUndefined (s : State) (slot : Nat) (next : State) : Host.Outcome State Fault Refusal :=
  match s.readDesc slot with
  | .undefinedCode => .fault (.undefinedDescriptor slot)
  | _ => .next next

/-- READ_COMPLETION (R38). -/
def execReadCompletion (b : BankId) (s : State) : Host.Outcome State Fault Refusal :=
  match s.inFlight b with
  | some ⟨.ce n, slot, .read prefer, dropped⟩ => unlessUndefined s slot (s.readDone b n slot prefer dropped)
  | _ => .next s

/-- STAGE_COMPLETION (R41). -/
def execStageCompletion (b : BankId) (s : State) : Host.Outcome State Fault Refusal :=
  match s.inFlight b with
  | some ⟨.ce n, slot, .stage v mask, dropped⟩ =>
    unlessUndefined s slot (s.writeDone b n slot dropped (s.stageEffect n slot v mask))
  | _ => .next s

/-- POST_COMPLETION (R42). -/
def execPostCompletion (b : BankId) (s : State) : Host.Outcome State Fault Refusal :=
  match s.inFlight b with
  | some ⟨.ce n, slot, .post v mask, dropped⟩ =>
    unlessUndefined s slot (s.writeDone b n slot dropped (s.postEffect n slot v mask))
  | _ => .next s

/-- DESC_READ_COMPLETION (R48). -/
def execDescReadCompletion (b : BankId) (s : State) : Host.Outcome State Fault Refusal :=
  match s.inFlight b with
  | some ⟨.ce n, slot, .descRead, dropped⟩ => .next (s.descReadDone b n slot dropped)
  | _ => .next s

/-- DESC_WRITE_COMPLETION (R46). -/
def execDescWriteCompletion (b : BankId) (s : State) : Host.Outcome State Fault Refusal :=
  match s.inFlight b with
  | some ⟨.ce n, slot, .descWrite d l h, dropped⟩ => .next (s.descWriteDone b n slot d l h dropped)
  | _ => .next s

/-- MAP_FILL_COMPLETION (R55). -/
def execMapFillCompletion (b : BankId) (s : State) : Host.Outcome State Fault Refusal :=
  match s.inFlight b with
  | some ⟨.ce n, slot, .mapFill l inserts, dropped⟩ => .next (s.mapFillDone b n slot l inserts dropped)
  | _ => .next s

/-- MAP_READ_COMPLETION (R65). -/
def execMapReadCompletion (b : BankId) (s : State) : Host.Outcome State Fault Refusal :=
  match s.inFlight b with
  | some ⟨.ce n, slot, .mapRead, dropped⟩ => .next (s.mapReadDone b n slot dropped)
  | _ => .next s

/-- MAP_WRITE_COMPLETION (R60). -/
def execMapWriteCompletion (b : BankId) (s : State) : Host.Outcome State Fault Refusal :=
  match s.inFlight b with
  | some ⟨.ce n, slot, .mapWrite t l e, dropped⟩ => .next (s.mapWriteDone b n slot t l e dropped)
  | _ => .next s

/-- TRANSFER_COMPLETION (R99). -/
def execTransferCompletion (b : BankId) (s : State) : Host.Outcome State Fault Refusal :=
  match s.inFlight b with
  | some ⟨.load, slot, .transfer, _⟩ => .next (s.transferDone b slot)
  | _ => .next s

/-- SCRUB_COMPLETION (R111). -/
def execScrubCompletion (b : BankId) (s : State) : Host.Outcome State Fault Refusal :=
  match s.inFlight b with
  | some ⟨.scrub, slot, .scrub, _⟩ => .next (s.scrubDone b slot)
  | _ => .next s

/-- FILL_COMPLETION (R13): one FILL is in flight in every bank that is INIT while RESET is high. -/
def execFillCompletion (b : BankId) (s : State) : Host.Outcome State Fault Refusal :=
  if s.resetLow then .next s
  else
    match (s.bank b).phase with
    | .init => .next (s.fillDone b)
    | _ => .next s

end Sys2Proof.Machine
end

