-- ==== Sys2Proof/Machine/LinkEvents.lean ====
section
/-! DEFINITION. Events on the links: start bits, characters, gap expiry, the line's return to high, and the last byte of a
response (chapter 8). -/

namespace Sys2Proof.Machine

/-! ## Characters (R122, R123) -/

/-- The eight data bits hold an odd number of 1s. -/
def oddOnes (d : Byte) : Bool :=
  d.getLsbD 0 ^^ d.getLsbD 1 ^^ d.getLsbD 2 ^^ d.getLsbD 3 ^^ d.getLsbD 4 ^^ d.getLsbD 5 ^^ d.getLsbD 6 ^^ d.getLsbD 7

/-- The parity check of R122. -/
def parityPasses (p : Parity) (data : Byte) (parityBit : Bool) : Bool :=
  match p with
  | .none => true
  | .even => !(oddOnes data ^^ parityBit)
  | .odd => oddOnes data ^^ parityBit

/-- The stop check of R122: every stop bit of the setting is high. -/
def stopPasses (twoStops stop1 stop2 : Bool) : Bool := stop1 && (!twoStops || stop2)

/-- The line's level when the last stop bit is taken. -/
def lastStop (twoStops stop1 stop2 : Bool) : Bool := if twoStops then stop2 else stop1

/-- The gap timer's time, in units of 0.5 us: gap count x (divisor + 1), a bit time being (divisor + 1) x 0.5 us (R121,
R126). -/
def PortState.gapTime (p : PortState) : Nat := p.cfg.gapCount.toNat * (p.cfg.divisor.toNat + 1)

/-- The assembler in a state of a frame, its gap timer started afresh (R126). -/
def PortState.inFrame (p : PortState) (a : Assembler) : PortState := { p with asm := a, gapTimer := some p.gapTime }

/-- The assembler back in HUNT with a frame discarded and flags set, its gap timer stopped (R123 to R126). -/
def PortState.discardFrame (p : PortState) (f : BitVec 6) : PortState :=
  { p.setErrors f with asm := .hunt, gapTimer := none }

/-- The flags that a failed character sets (R123). -/
def failureFlags (parityOk stopOk : Bool) : BitVec 6 :=
  (if parityOk then 0 else flagParity) ||| (if stopOk then 0 else flagFraming)

/-- A character that fails a check: dropped in HUNT, else it sets its flags and discards the frame (R123). -/
def PortState.failedChar (p : PortState) (parityOk stopOk : Bool) : PortState :=
  match p.asm with
  | .hunt => p
  | _ => p.discardFrame (failureFlags parityOk stopOk)

/-- A character that passes its checks, taken by the assembler (R124, R125, R128). -/
def State.takeChar (s : State) (n : Port) (data : Byte) : State :=
  match (s.port n).asm with
  | .hunt => if data = sync then s.updPort n (fun p => p.inFrame .length) else s
  | .length =>
    if 2 ≤ data.toNat ∧ data.toNat ≤ 80 then s.updPort n (fun p => p.inFrame (.body data data.toNat []))
    else s.updPort n (fun p => p.discardFrame flagLength)
  | .body len left got =>
    if left ≤ 1 then s.updPort n (fun p => p.inFrame (.check len (got ++ [data])))
    else s.updPort n (fun p => p.inFrame (.body len (left - 1) (got ++ [data])))
  | .check len got =>
    if (s.port n).cfg.crcOn && data != crcOf (len :: got) then s.updPort n (fun p => p.discardFrame flagCrc)
    else s.goodFrame n got

/-- The receiver after a character's last stop bit: it looks for a start bit when the line is high, else waits for it to
return high (R122). -/
def receiverAfter (high : Bool) : Receiver := if high then .looking else .waitHigh

/-- CHARACTER_ARRIVAL (R122 to R128). No character is in progress unless a start bit has been detected (log 3). -/
def execCharacterArrival (n : Port) (data : Byte) (parityBit stop1 stop2 : Bool) (s : State) :
    Host.Outcome State Fault Refusal :=
  if s.listens n && (s.port n).rx == .taking then
    let c := (s.port n).cfg
    let s1 := s.updPort n (fun p => { p with rx := receiverAfter (lastStop c.twoStops stop1 stop2) })
    let pOk := parityPasses c.parity data parityBit
    let sOk := stopPasses c.twoStops stop1 stop2
    if pOk && sOk then .next (s1.takeChar n data) else .next (s1.updPort n (fun p => p.failedChar pOk sOk))
  else .next s

/-- START_BIT (R122, R126): the receiver takes a character; the gap timer stops. -/
def execStartBit (n : Port) (s : State) : Host.Outcome State Fault Refusal :=
  if s.listens n && (s.port n).rx == .looking then
    .next (s.updPort n (fun p => { p with rx := .taking, gapTimer := none }))
  else .next s

/-- GAP_EXPIRY (R126): GAP is set, the frame discarded, the assembler in HUNT. A stopped timer does not expire (log 3). -/
def execGapExpiry (n : Port) (s : State) : Host.Outcome State Fault Refusal :=
  if !s.resetLow && (s.port n).gapTimer.isSome then .next (s.updPort n (fun p => p.discardFrame flagGap)) else .next s

/-- LINE_RETURN_HIGH (R122): a receiver that waits for the line to be high looks for a start bit again. It follows that return
while its link is disabled as well, the model's choice (R135; log 23). -/
def execLineReturnHigh (n : Port) (s : State) : Host.Outcome State Fault Refusal :=
  if !s.resetLow && (s.port n).rx == .waitHigh then .next (s.updPort n (fun p => { p with rx := .looking })) else .next s

/-! ## The last byte of a response (R132, R133, R154) -/

/-- The reset that a RESET request named takes effect, and CEn is IDLE (R154). -/
def State.takeReset (s : State) (n : Port) : ResetScope → State
  | .warm => s.warmReset
  | .port m => (s.portReset m).setEngine n .idle

/-- The buffer that was SENDING becomes FREE and the transmitter takes the next FILLED buffer (R132). -/
def State.bufferSent (s : State) (n : Port) (k : BufId) : State :=
  s.updPort n (fun p => (p.setBuf k .free).startTransmitter)

/-- The reset of a RESET request whose response's last byte leaves from buffer k (R133). -/
def State.resetAfter (s : State) (n : Port) (k : BufId) (e : Engine) : State :=
  match e with
  | .resetWait k' scope => if k' = k then s.takeReset n scope else s
  | _ => s

/-- LAST_BYTE_LEAVES (R132): the buffer is freed, a RESET's reset takes effect, and CEn takes what it can (R139). -/
def execLastByteLeaves (n : Port) (s : State) : Host.Outcome State Fault Refusal :=
  if s.resetLow then .next s
  else
    match (s.port n).sendingBuf with
    | none => .next s
    | some k => .next (((s.bufferSent n k).resetAfter n k (s.port n).ce).serve n)

end Sys2Proof.Machine
end

