-- ==== Sys2Proof/Machine/PinEvents.lean ====
section
/-! DEFINITION. Disturbances, the RESET and LOAD pins, and the expiries of the cycle, hold and scrub timers. -/

namespace Sys2Proof.Machine

/-- DISTURBANCE (R3): one word's condition worsens by one step, at any time. -/
def execDisturbance (slot : Fin 4096) (word : WordName) (s : State) : Host.Outcome State Fault Refusal :=
  .next (s.putWord slot.val word (s.word slot.val word).disturbed)

/-- RESET_LINE_LOW (R173). -/
def execResetLineLow (s : State) : Host.Outcome State Fault Refusal := .next s.stopPart

/-- COLD_RESET (R173). -/
def execColdReset (roles : BitVec 4) (s : State) : Host.Outcome State Fault Refusal := .next (s.coldReset roles)

/-- The edge is a cycle event under the source (R92). -/
def edgeCounts (src : CycleSource) (e : Edge) : Bool :=
  match src, e with
  | .lineRise, .rising => true
  | .lineFall, .falling => true
  | _, _ => false

/-- LOAD_EDGE (R92): a cycle event in the selected direction, else ignored; ignored while RESET is low (R173). -/
def execLoadEdge (e : Edge) (s : State) : Host.Outcome State Fault Refusal :=
  if !s.resetLow && edgeCounts s.dev.source e then .next s.cycleEvent else .next s

/-- CYCLE_TIMER_EXPIRY (R93): a cycle event, and a new period at once. A stopped timer does not expire (log 3). -/
def execCycleTimerExpiry (s : State) : Host.Outcome State Fault Refusal :=
  if !s.resetLow && s.cycleTimer.isSome then .next { s with cycleTimer := some s.dev.period.toNat }.cycleEvent
  else .next s

/-- The result of a point whose hold has expired under ABANDON (R104). -/
def Hold.expired (h : Hold) : PointResult :=
  { status := .expired, corrected := h.run.corrected, fromStaged := false, value := noValue, group := h.group.num,
    cycle := h.cycle }

/-- The expiry of CEn's hold timer (R104): HOLD_EXPIRED is raised; under WAIT the hold goes on with its timer stopped, under
ABANDON the point is EXPIRED and the run goes on. -/
def State.holdExpires (s : State) (n : Port) (h : Hold) : State :=
  if (s.port n).cfg.holdWaits then (s.raise n .holdExpired).setEngine n (.holding { h with timer := none })
  else (((s.raise n .holdExpired).settlePoint n h.run h.expired).serve n)

/-- HOLD_TIMER_EXPIRY (R104). A stopped timer does not expire (log 3). -/
def execHoldTimerExpiry (n : Port) (s : State) : Host.Outcome State Fault Refusal :=
  if s.resetLow then .next s
  else
    match (s.port n).ce with
    | .holding h => if h.timer.isSome then .next (s.holdExpires n h) else .next s
    | _ => .next s

/-- The first slot from `pos` up to 4095 whose segment's mask bit is 0 (R110 step 3). -/
def firstUnmasked (mask : Half) (pos : Nat) : Option Nat :=
  if mask.getLsbD (pos / 256) then
    ((List.range 16).find? (fun k => decide (pos / 256 < k) && !mask.getLsbD k)).map (fun k => 256 * k)
  else some pos

/-- The SCRUB operation of a slot (R110). -/
def scrubOp (slot : Nat) : BankOp := { who := .scrub, slot := slot, act := .scrub, dropped := false }

/-- The slot choice (R110). -/
def State.slotChoice (s : State) : State :=
  if s.scrubOutstanding then s
  else if s.dev.scrubMask = 0xFFFF then s
  else
    match firstUnmasked s.dev.scrubMask s.patrol with
    | some slot => s.place (scrubOp slot)
    | none =>
      let s1 := { s with patrol := 0 }.raiseAll .scrubPass
      match firstUnmasked s.dev.scrubMask 0 with
      | some slot => s1.place (scrubOp slot)
      | none => s1

/-- SCRUB_TIMER_EXPIRY (R109, R110): a new full interval at once, and one slot choice. A stopped timer does not expire
(log 3). -/
def execScrubTimerExpiry (s : State) : Host.Outcome State Fault Refusal :=
  if !s.resetLow && s.scrubTimer.isSome then .next { s with scrubTimer := s.freshScrubTimer }.slotChoice else .next s

end Sys2Proof.Machine
end

