-- ==== Sys2Proof/Machine/RequestRows.lean ====
section
/-! DEFINITION. The request rows: each is the passage of one frame (R128), with the OP, and the item, form or scope
byte, that its row names. -/

namespace Sys2Proof.Machine

/-- PROBE (R149). -/
def execProbe (n : Port) (tag : Byte) (params : List Byte) (s : State) : Host.Outcome State Fault Refusal :=
  sendRequest n (tag :: opProbe :: params) s

/-- STATUS (R149). -/
def execStatus (n : Port) (tag : Byte) (params : List Byte) (s : State) : Host.Outcome State Fault Refusal :=
  sendRequest n (tag :: opStatus :: params) s

/-- CLEAR (R150). -/
def execClear (n : Port) (tag : Byte) (params : List Byte) (s : State) : Host.Outcome State Fault Refusal :=
  sendRequest n (tag :: opClear :: params) s

/-- LOADED (R150). -/
def execLoaded (n : Port) (tag : Byte) (params : List Byte) (s : State) : Host.Outcome State Fault Refusal :=
  sendRequest n (tag :: opLoaded :: params) s

/-- READ (R144, R145). -/
def execRead (n : Port) (tag : Byte) (params : List Byte) (s : State) : Host.Outcome State Fault Refusal :=
  sendRequest n (tag :: opRead :: params) s

/-- READ_STAMPED (R144, R147). -/
def execReadStamped (n : Port) (tag : Byte) (params : List Byte) (s : State) : Host.Outcome State Fault Refusal :=
  sendRequest n (tag :: opReadStamped :: params) s

/-- STAGE (R144, R145). -/
def execStage (n : Port) (tag : Byte) (params : List Byte) (s : State) : Host.Outcome State Fault Refusal :=
  sendRequest n (tag :: opStage :: params) s

/-- POST (R144, R145). -/
def execPost (n : Port) (tag : Byte) (params : List Byte) (s : State) : Host.Outcome State Fault Refusal :=
  sendRequest n (tag :: opPost :: params) s

/-- ARM_NOW (R88). -/
def execArmNow (n : Port) (tag group : Byte) (extra : List Byte) (s : State) : Host.Outcome State Fault Refusal :=
  sendRequest n (tag :: opArm :: group :: formNow :: extra) s

/-- ARM_NEXT (R88). -/
def execArmNext (n : Port) (tag group : Byte) (extra : List Byte) (s : State) : Host.Outcome State Fault Refusal :=
  sendRequest n (tag :: opArm :: group :: formNext :: extra) s

/-- DISCARD (R89). -/
def execDiscard (n : Port) (tag : Byte) (params : List Byte) (s : State) : Host.Outcome State Fault Refusal :=
  sendRequest n (tag :: opDiscard :: params) s

/-- GROUP_STATUS (R91). -/
def execGroupStatus (n : Port) (tag : Byte) (params : List Byte) (s : State) : Host.Outcome State Fault Refusal :=
  sendRequest n (tag :: opGroupStatus :: params) s

/-- CYCLE (R96). -/
def execCycle (n : Port) (tag : Byte) (params : List Byte) (s : State) : Host.Outcome State Fault Refusal :=
  sendRequest n (tag :: opCycle :: params) s

/-- DESC_READ (R48). -/
def execDescRead (n : Port) (tag : Byte) (params : List Byte) (s : State) : Host.Outcome State Fault Refusal :=
  sendRequest n (tag :: opDescRead :: params) s

/-- DESC_WRITE (R45). -/
def execDescWrite (n : Port) (tag : Byte) (params : List Byte) (s : State) : Host.Outcome State Fault Refusal :=
  sendRequest n (tag :: opDescWrite :: params) s

/-- GROUP_WRITE (R90). -/
def execGroupWrite (n : Port) (tag : Byte) (params : List Byte) (s : State) : Host.Outcome State Fault Refusal :=
  sendRequest n (tag :: opGroupWrite :: params) s

/-- MAP_READ (R65). -/
def execMapRead (n : Port) (tag : Byte) (params : List Byte) (s : State) : Host.Outcome State Fault Refusal :=
  sendRequest n (tag :: opMapRead :: params) s

/-- MAP_WRITE (R59). -/
def execMapWrite (n : Port) (tag : Byte) (params : List Byte) (s : State) : Host.Outcome State Fault Refusal :=
  sendRequest n (tag :: opMapWrite :: params) s

/-- FLUSH (R64). -/
def execFlush (n : Port) (tag : Byte) (params : List Byte) (s : State) : Host.Outcome State Fault Refusal :=
  sendRequest n (tag :: opFlush :: params) s

/-- SETTING_READ (R170). -/
def execSettingRead (n : Port) (tag : Byte) (params : List Byte) (s : State) : Host.Outcome State Fault Refusal :=
  sendRequest n (tag :: opSettingRead :: params) s

/-- SETTING_WRITE_REPAIR_POLICY (R6, R171). -/
def execSettingWriteRepairPolicy (n : Port) (tag port : Byte) (value : List Byte) (s : State) :
    Host.Outcome State Fault Refusal :=
  sendRequest n (tag :: opSettingWrite :: Item.repairPolicy.code :: port :: value) s

/-- SETTING_WRITE_SCRUB_GUARANTEE (R24, R171). -/
def execSettingWriteScrubGuarantee (n : Port) (tag port : Byte) (value : List Byte) (s : State) :
    Host.Outcome State Fault Refusal :=
  sendRequest n (tag :: opSettingWrite :: Item.scrubGuarantee.code :: port :: value) s

/-- SETTING_WRITE_SCRUB_INTERVAL (R109, R171). -/
def execSettingWriteScrubInterval (n : Port) (tag port : Byte) (value : List Byte) (s : State) :
    Host.Outcome State Fault Refusal :=
  sendRequest n (tag :: opSettingWrite :: Item.scrubInterval.code :: port :: value) s

/-- SETTING_WRITE_SCRUB_MASK (R110, R171). -/
def execSettingWriteScrubMask (n : Port) (tag port : Byte) (value : List Byte) (s : State) :
    Host.Outcome State Fault Refusal :=
  sendRequest n (tag :: opSettingWrite :: Item.scrubMask.code :: port :: value) s

/-- SETTING_WRITE_CYCLE_SOURCE (R92, R171). -/
def execSettingWriteCycleSource (n : Port) (tag port : Byte) (value : List Byte) (s : State) :
    Host.Outcome State Fault Refusal :=
  sendRequest n (tag :: opSettingWrite :: Item.cycleSource.code :: port :: value) s

/-- SETTING_WRITE_CYCLE_PERIOD (R93, R171). -/
def execSettingWriteCyclePeriod (n : Port) (tag port : Byte) (value : List Byte) (s : State) :
    Host.Outcome State Fault Refusal :=
  sendRequest n (tag :: opSettingWrite :: Item.cyclePeriod.code :: port :: value) s

/-- SETTING_WRITE_POOL_LOW_THRESHOLD (R79, R171). -/
def execSettingWritePoolLowThreshold (n : Port) (tag port : Byte) (value : List Byte) (s : State) :
    Host.Outcome State Fault Refusal :=
  sendRequest n (tag :: opSettingWrite :: Item.poolLow.code :: port :: value) s

/-- SETTING_WRITE_VIEW_SIZE (R63, R171). -/
def execSettingWriteViewSize (n : Port) (tag port : Byte) (value : List Byte) (s : State) :
    Host.Outcome State Fault Refusal :=
  sendRequest n (tag :: opSettingWrite :: Item.viewSize.code :: port :: value) s

/-- SETTING_WRITE_PARITY (R130, R171). -/
def execSettingWriteParity (n : Port) (tag port : Byte) (value : List Byte) (s : State) :
    Host.Outcome State Fault Refusal :=
  sendRequest n (tag :: opSettingWrite :: Item.parity.code :: port :: value) s

/-- SETTING_WRITE_STOP_BITS (R130, R171). -/
def execSettingWriteStopBits (n : Port) (tag port : Byte) (value : List Byte) (s : State) :
    Host.Outcome State Fault Refusal :=
  sendRequest n (tag :: opSettingWrite :: Item.stopBits.code :: port :: value) s

/-- SETTING_WRITE_RATE_DIVISOR (R130, R171). -/
def execSettingWriteRateDivisor (n : Port) (tag port : Byte) (value : List Byte) (s : State) :
    Host.Outcome State Fault Refusal :=
  sendRequest n (tag :: opSettingWrite :: Item.rateDivisor.code :: port :: value) s

/-- SETTING_WRITE_GAP_COUNT (R130, R171). -/
def execSettingWriteGapCount (n : Port) (tag port : Byte) (value : List Byte) (s : State) :
    Host.Outcome State Fault Refusal :=
  sendRequest n (tag :: opSettingWrite :: Item.gapCount.code :: port :: value) s

/-- SETTING_WRITE_CRC_ENFORCEMENT (R130, R171). -/
def execSettingWriteCrcEnforcement (n : Port) (tag port : Byte) (value : List Byte) (s : State) :
    Host.Outcome State Fault Refusal :=
  sendRequest n (tag :: opSettingWrite :: Item.crcEnforcement.code :: port :: value) s

/-- SETTING_WRITE_LINK_ENABLE (R135, R171). -/
def execSettingWriteLinkEnable (n : Port) (tag port : Byte) (value : List Byte) (s : State) :
    Host.Outcome State Fault Refusal :=
  sendRequest n (tag :: opSettingWrite :: Item.linkEnable.code :: port :: value) s

/-- SETTING_WRITE_WATCH_SET (R160, R171). -/
def execSettingWriteWatchSet (n : Port) (tag port : Byte) (value : List Byte) (s : State) :
    Host.Outcome State Fault Refusal :=
  sendRequest n (tag :: opSettingWrite :: Item.watchSet.code :: port :: value) s

/-- SETTING_WRITE_HOLD_LIMIT (R102, R171). -/
def execSettingWriteHoldLimit (n : Port) (tag port : Byte) (value : List Byte) (s : State) :
    Host.Outcome State Fault Refusal :=
  sendRequest n (tag :: opSettingWrite :: Item.holdLimit.code :: port :: value) s

/-- SETTING_WRITE_HOLD_ACTION (R104, R171). -/
def execSettingWriteHoldAction (n : Port) (tag port : Byte) (value : List Byte) (s : State) :
    Host.Outcome State Fault Refusal :=
  sendRequest n (tag :: opSettingWrite :: Item.holdAction.code :: port :: value) s

/-- SETTING_WRITE_LEVEL (R162, R171). -/
def execSettingWriteLevel (n : Port) (tag : Byte) (kind : Fin 11) (port : Byte) (value : List Byte) (s : State) :
    Host.Outcome State Fault Refusal :=
  sendRequest n (tag :: opSettingWrite :: (Item.level kind).code :: port :: value) s

/-- LOG_READ (R119). -/
def execLogRead (n : Port) (tag : Byte) (params : List Byte) (s : State) : Host.Outcome State Fault Refusal :=
  sendRequest n (tag :: opLogRead :: params) s

/-- LOG_CLEAR (R120). -/
def execLogClear (n : Port) (tag : Byte) (params : List Byte) (s : State) : Host.Outcome State Fault Refusal :=
  sendRequest n (tag :: opLogClear :: params) s

/-- RESET_WARM (R154, R174). -/
def execResetWarm (n : Port) (tag : Byte) (rest : List Byte) (s : State) : Host.Outcome State Fault Refusal :=
  sendRequest n (tag :: opReset :: scopeWarm :: rest) s

/-- RESET_PORT (R154, R175). -/
def execResetPort (n : Port) (tag scope : Byte) (rest : List Byte) (s : State) : Host.Outcome State Fault Refusal :=
  sendRequest n (tag :: opReset :: scope :: rest) s

/-- UNKNOWN_OP (R141). -/
def execUnknownOp (n : Port) (tag op : Byte) (params : List Byte) (s : State) : Host.Outcome State Fault Refusal :=
  sendRequest n (tag :: op :: params) s

end Sys2Proof.Machine
end

