-- ==== Sys2Proof/Machine/Dispatch.lean ====
section
/-! DEFINITION. One arm per command. -/

namespace Sys2Proof.Machine

/-- The effect of a command on everything but the queue of commands. -/
def exec (i : Instr) (s : State) : Host.Outcome State Fault Refusal :=
  match i with
  | .disturbance slot word => Sys2Proof.Machine.execDisturbance slot word s
  | .startBit n => Sys2Proof.Machine.execStartBit n s
  | .characterArrival n data parityBit stop1 stop2 => Sys2Proof.Machine.execCharacterArrival n data parityBit stop1 stop2 s
  | .gapExpiry n => Sys2Proof.Machine.execGapExpiry n s
  | .lastByteLeaves n => Sys2Proof.Machine.execLastByteLeaves n s
  | .resetLineLow => Sys2Proof.Machine.execResetLineLow s
  | .coldReset roles => Sys2Proof.Machine.execColdReset roles s
  | .loadEdge e => Sys2Proof.Machine.execLoadEdge e s
  | .cycleTimerExpiry => Sys2Proof.Machine.execCycleTimerExpiry s
  | .holdTimerExpiry n => Sys2Proof.Machine.execHoldTimerExpiry n s
  | .scrubTimerExpiry => Sys2Proof.Machine.execScrubTimerExpiry s
  | .readCompletion b => Sys2Proof.Machine.execReadCompletion b s
  | .stageCompletion b => Sys2Proof.Machine.execStageCompletion b s
  | .postCompletion b => Sys2Proof.Machine.execPostCompletion b s
  | .descReadCompletion b => Sys2Proof.Machine.execDescReadCompletion b s
  | .descWriteCompletion b => Sys2Proof.Machine.execDescWriteCompletion b s
  | .mapFillCompletion b => Sys2Proof.Machine.execMapFillCompletion b s
  | .mapReadCompletion b => Sys2Proof.Machine.execMapReadCompletion b s
  | .mapWriteCompletion b => Sys2Proof.Machine.execMapWriteCompletion b s
  | .transferCompletion b => Sys2Proof.Machine.execTransferCompletion b s
  | .scrubCompletion b => Sys2Proof.Machine.execScrubCompletion b s
  | .fillCompletion b => Sys2Proof.Machine.execFillCompletion b s
  | .probe n tag params => Sys2Proof.Machine.execProbe n tag params s
  | .status n tag params => Sys2Proof.Machine.execStatus n tag params s
  | .clear n tag params => Sys2Proof.Machine.execClear n tag params s
  | .loaded n tag params => Sys2Proof.Machine.execLoaded n tag params s
  | .read n tag params => Sys2Proof.Machine.execRead n tag params s
  | .readStamped n tag params => Sys2Proof.Machine.execReadStamped n tag params s
  | .stage n tag params => Sys2Proof.Machine.execStage n tag params s
  | .post n tag params => Sys2Proof.Machine.execPost n tag params s
  | .armNow n tag group extra => Sys2Proof.Machine.execArmNow n tag group extra s
  | .armNext n tag group extra => Sys2Proof.Machine.execArmNext n tag group extra s
  | .discard n tag params => Sys2Proof.Machine.execDiscard n tag params s
  | .groupStatus n tag params => Sys2Proof.Machine.execGroupStatus n tag params s
  | .cycle n tag params => Sys2Proof.Machine.execCycle n tag params s
  | .descRead n tag params => Sys2Proof.Machine.execDescRead n tag params s
  | .descWrite n tag params => Sys2Proof.Machine.execDescWrite n tag params s
  | .groupWrite n tag params => Sys2Proof.Machine.execGroupWrite n tag params s
  | .mapRead n tag params => Sys2Proof.Machine.execMapRead n tag params s
  | .mapWrite n tag params => Sys2Proof.Machine.execMapWrite n tag params s
  | .flush n tag params => Sys2Proof.Machine.execFlush n tag params s
  | .settingRead n tag params => Sys2Proof.Machine.execSettingRead n tag params s
  | .settingWriteRepairPolicy n tag port value => Sys2Proof.Machine.execSettingWriteRepairPolicy n tag port value s
  | .settingWriteScrubGuarantee n tag port value => Sys2Proof.Machine.execSettingWriteScrubGuarantee n tag port value s
  | .settingWriteScrubInterval n tag port value => Sys2Proof.Machine.execSettingWriteScrubInterval n tag port value s
  | .settingWriteScrubMask n tag port value => Sys2Proof.Machine.execSettingWriteScrubMask n tag port value s
  | .settingWriteCycleSource n tag port value => Sys2Proof.Machine.execSettingWriteCycleSource n tag port value s
  | .settingWriteCyclePeriod n tag port value => Sys2Proof.Machine.execSettingWriteCyclePeriod n tag port value s
  | .settingWritePoolLowThreshold n tag port value => Sys2Proof.Machine.execSettingWritePoolLowThreshold n tag port value s
  | .settingWriteViewSize n tag port value => Sys2Proof.Machine.execSettingWriteViewSize n tag port value s
  | .settingWriteParity n tag port value => Sys2Proof.Machine.execSettingWriteParity n tag port value s
  | .settingWriteStopBits n tag port value => Sys2Proof.Machine.execSettingWriteStopBits n tag port value s
  | .settingWriteRateDivisor n tag port value => Sys2Proof.Machine.execSettingWriteRateDivisor n tag port value s
  | .settingWriteGapCount n tag port value => Sys2Proof.Machine.execSettingWriteGapCount n tag port value s
  | .settingWriteCrcEnforcement n tag port value => Sys2Proof.Machine.execSettingWriteCrcEnforcement n tag port value s
  | .settingWriteLinkEnable n tag port value => Sys2Proof.Machine.execSettingWriteLinkEnable n tag port value s
  | .settingWriteWatchSet n tag port value => Sys2Proof.Machine.execSettingWriteWatchSet n tag port value s
  | .settingWriteHoldLimit n tag port value => Sys2Proof.Machine.execSettingWriteHoldLimit n tag port value s
  | .settingWriteHoldAction n tag port value => Sys2Proof.Machine.execSettingWriteHoldAction n tag port value s
  | .settingWriteLevel n tag kind port value => Sys2Proof.Machine.execSettingWriteLevel n tag kind port value s
  | .logRead n tag params => Sys2Proof.Machine.execLogRead n tag params s
  | .logClear n tag params => Sys2Proof.Machine.execLogClear n tag params s
  | .resetWarm n tag rest => Sys2Proof.Machine.execResetWarm n tag rest s
  | .resetPort n tag scope rest => Sys2Proof.Machine.execResetPort n tag scope rest s
  | .lineReturnHigh n => Sys2Proof.Machine.execLineReturnHigh n s
  | .unknownOp n tag op params => Sys2Proof.Machine.execUnknownOp n tag op params s

end Sys2Proof.Machine
end

