-- ==== Sys2Proof/Safety.lean ====
section
/-! DEFINITION. What the statements speak of: the premises under which a command has its effect at once, and the
invariants of the part. -/

namespace Sys2Proof.Machine

/-! ## Request rows and their frames -/

/-- The frame of a request row: its link, and TAG, OP and parameters as they pass the check (R128). -/
def frameOf : Instr → Option (Port × List Byte)
  | .probe n tag ps => some (n, tag :: opProbe :: ps)
  | .status n tag ps => some (n, tag :: opStatus :: ps)
  | .clear n tag ps => some (n, tag :: opClear :: ps)
  | .loaded n tag ps => some (n, tag :: opLoaded :: ps)
  | .read n tag ps => some (n, tag :: opRead :: ps)
  | .readStamped n tag ps => some (n, tag :: opReadStamped :: ps)
  | .stage n tag ps => some (n, tag :: opStage :: ps)
  | .post n tag ps => some (n, tag :: opPost :: ps)
  | .armNow n tag g extra => some (n, tag :: opArm :: g :: formNow :: extra)
  | .armNext n tag g extra => some (n, tag :: opArm :: g :: formNext :: extra)
  | .discard n tag ps => some (n, tag :: opDiscard :: ps)
  | .groupStatus n tag ps => some (n, tag :: opGroupStatus :: ps)
  | .cycle n tag ps => some (n, tag :: opCycle :: ps)
  | .descRead n tag ps => some (n, tag :: opDescRead :: ps)
  | .descWrite n tag ps => some (n, tag :: opDescWrite :: ps)
  | .groupWrite n tag ps => some (n, tag :: opGroupWrite :: ps)
  | .mapRead n tag ps => some (n, tag :: opMapRead :: ps)
  | .mapWrite n tag ps => some (n, tag :: opMapWrite :: ps)
  | .flush n tag ps => some (n, tag :: opFlush :: ps)
  | .settingRead n tag ps => some (n, tag :: opSettingRead :: ps)
  | .settingWriteRepairPolicy n tag p v => some (n, tag :: opSettingWrite :: Item.repairPolicy.code :: p :: v)
  | .settingWriteScrubGuarantee n tag p v => some (n, tag :: opSettingWrite :: Item.scrubGuarantee.code :: p :: v)
  | .settingWriteScrubInterval n tag p v => some (n, tag :: opSettingWrite :: Item.scrubInterval.code :: p :: v)
  | .settingWriteScrubMask n tag p v => some (n, tag :: opSettingWrite :: Item.scrubMask.code :: p :: v)
  | .settingWriteCycleSource n tag p v => some (n, tag :: opSettingWrite :: Item.cycleSource.code :: p :: v)
  | .settingWriteCyclePeriod n tag p v => some (n, tag :: opSettingWrite :: Item.cyclePeriod.code :: p :: v)
  | .settingWritePoolLowThreshold n tag p v => some (n, tag :: opSettingWrite :: Item.poolLow.code :: p :: v)
  | .settingWriteViewSize n tag p v => some (n, tag :: opSettingWrite :: Item.viewSize.code :: p :: v)
  | .settingWriteParity n tag p v => some (n, tag :: opSettingWrite :: Item.parity.code :: p :: v)
  | .settingWriteStopBits n tag p v => some (n, tag :: opSettingWrite :: Item.stopBits.code :: p :: v)
  | .settingWriteRateDivisor n tag p v => some (n, tag :: opSettingWrite :: Item.rateDivisor.code :: p :: v)
  | .settingWriteGapCount n tag p v => some (n, tag :: opSettingWrite :: Item.gapCount.code :: p :: v)
  | .settingWriteCrcEnforcement n tag p v => some (n, tag :: opSettingWrite :: Item.crcEnforcement.code :: p :: v)
  | .settingWriteLinkEnable n tag p v => some (n, tag :: opSettingWrite :: Item.linkEnable.code :: p :: v)
  | .settingWriteWatchSet n tag p v => some (n, tag :: opSettingWrite :: Item.watchSet.code :: p :: v)
  | .settingWriteHoldLimit n tag p v => some (n, tag :: opSettingWrite :: Item.holdLimit.code :: p :: v)
  | .settingWriteHoldAction n tag p v => some (n, tag :: opSettingWrite :: Item.holdAction.code :: p :: v)
  | .settingWriteLevel n tag k p v => some (n, tag :: opSettingWrite :: (Item.level k).code :: p :: v)
  | .logRead n tag ps => some (n, tag :: opLogRead :: ps)
  | .logClear n tag ps => some (n, tag :: opLogClear :: ps)
  | .resetWarm n tag rest => some (n, tag :: opReset :: scopeWarm :: rest)
  | .resetPort n tag sc rest => some (n, tag :: opReset :: sc :: rest)
  | .unknownOp n tag op ps => some (n, tag :: op :: ps)
  | _ => none

/-- The SETTING_WRITE row of an item. -/
def settingRow (n : Port) (tag port : Byte) (value : List Byte) : Item → Instr
  | .repairPolicy => .settingWriteRepairPolicy n tag port value
  | .scrubGuarantee => .settingWriteScrubGuarantee n tag port value
  | .scrubInterval => .settingWriteScrubInterval n tag port value
  | .scrubMask => .settingWriteScrubMask n tag port value
  | .cycleSource => .settingWriteCycleSource n tag port value
  | .cyclePeriod => .settingWriteCyclePeriod n tag port value
  | .poolLow => .settingWritePoolLowThreshold n tag port value
  | .viewSize => .settingWriteViewSize n tag port value
  | .parity => .settingWriteParity n tag port value
  | .stopBits => .settingWriteStopBits n tag port value
  | .rateDivisor => .settingWriteRateDivisor n tag port value
  | .gapCount => .settingWriteGapCount n tag port value
  | .crcEnforcement => .settingWriteCrcEnforcement n tag port value
  | .linkEnable => .settingWriteLinkEnable n tag port value
  | .watchSet => .settingWriteWatchSet n tag port value
  | .holdLimit => .settingWriteHoldLimit n tag port value
  | .holdAction => .settingWriteHoldAction n tag port value
  | .level k => .settingWriteLevel n tag k port value

/-! ## Premises -/

/-- A request that passes on link n is taken and answered in that event, with buffer k (R139): RESET is high and the link
enabled, the part is ready, CEn is IDLE with no frame waiting, and k is the FREE buffer it reserves. -/
def State.takes (s : State) (n : Port) (k : BufId) : Prop :=
  s.listens n = true ∧ s.ready = true ∧ (s.port n).ce = .idle ∧ (s.port n).queue = [] ∧ (s.port n).freeBuf = some k

/-- Port n when its engine has just taken a frame that passed: assembler in HUNT, buffer k RESERVED (R124, R131). -/
def State.taking (s : State) (n : Port) (k : BufId) : State :=
  s.updPort n (fun p => { p.setBuf k .reserved with rx := .looking, asm := .hunt, gapTimer := none })

/-- A character that passes its parity and stop checks under the port's settings (R122). -/
def PortState.accepts (p : PortState) (data : Byte) (parityBit stop1 stop2 : Bool) : Prop :=
  parityPasses p.cfg.parity data parityBit = true ∧ stopPasses p.cfg.twoStops stop1 stop2 = true

/-- The frame a buffer holds. -/
def Buffer.response : Buffer → Option Response
  | .filled r => some r
  | .sending r _ => some r
  | _ => none

/-- The operations at a bank: waiting, or in flight. -/
def Bank.ops (b : Bank) : List BankOp :=
  match b.phase with
  | .busy op => op :: b.waiting
  | _ => b.waiting

/-! ## Invariants -/

/-- The entries in use, group by group (R67). -/
def State.inUse (s : State) : List StageEntry := allGroups.flatMap (fun g => (s.group g).list)

/-- The pool's account, the group table's coherence, and the holds on the loading group (R68, R84, R85, R97, R98, R102). -/
structure LoadSound (s : State) : Prop where
  /-- Each of the 512 entries is on exactly one list. -/
  entries : (s.freeList ++ s.inUse.map StageEntry.entry).Perm allEntries
  /-- No two entries in use name one point. -/
  points : (s.inUse.map StageEntry.point).Nodup
  /-- The staged count is 0 exactly when the group is EMPTY. -/
  counts : ∀ g, (s.group g).list = [] ↔ (s.group g).state = .empty
  /-- The load queue holds exactly the QUEUED groups, each once. -/
  queueOnce : s.loadQueue.Nodup
  queued : ∀ g, g ∈ s.loadQueue ↔ (s.group g).state = .queued
  /-- The LOADING group is the one the engine works on. -/
  loading : ∀ g, (s.group g).state = .loading ↔ s.engine = some g
  /-- A CYCLIC group is never ARMED. -/
  armed : ∀ g, (s.group g).state = .armed → (s.group g).mode = .manual
  /-- An IDLE engine leaves no group waiting. -/
  idle : s.engine = none → s.loadQueue = []
  /-- A command engine holds only on the group that is LOADING. -/
  holds : ∀ n h, (s.port n).ce = .holding h → (s.group h.group).state = .loading

/-- A translation cache holds at most eight entries, one to a logical page, all below the view size (R53). -/
def CacheBounded (s : State) : Prop :=
  ∀ n, (s.port n).cache.length ≤ 8 ∧ ((s.port n).cache.map CacheEntry.logical).Nodup ∧
    ∀ e ∈ (s.port n).cache, e.logical < (s.port n).cfg.viewSize.toNat

/-- Every setting lies in its range (11.2, R121). -/
def SettingsInRange (s : State) : Prop :=
  ∀ (n : Port) (i : Item), i.inRange (valueOf (s.itemBytes n i)) = true

/-- The arbiters and their requesters: no bank IDLE while a request waits, every operation at its slot's bank, at most one
request of each requester in the whole store, the patrol position a slot, the wait count at most 8 and 0 while no scrub request
waits, the fill position within the fill (R1, R13, R19, R21, R22, R108). -/
structure ArbiterSound (s : State) : Prop where
  guarantee : s.dev.guarantee.toNat ≤ 8
  idle : ∀ b, (s.bank b).phase = .idle → (s.bank b).waiting = []
  home : ∀ b, ∀ op ∈ (s.bank b).ops, bankOf op.slot = b
  bound : ∀ b, (s.bank b).waitCount ≤ 8
  claims : ∀ r, ([(0 : BankId), 1, 2, 3].flatMap (fun b => (s.bank b).ops)).countP (fun op => op.who == r) ≤ 1
  patrol : s.patrol ≤ 4095
  zero : s.resetLow = false → ∀ b, (s.bank b).waits .scrub = false → (s.bank b).waitCount = 0
  fill : ∀ b, (s.bank b).phase = .init → (s.bank b).fillRow < 1024

/-- The words of a slot make a descriptor record that the checks of R45 accept, as far as they can be read (R31). -/
def State.recordAdmitted (s : State) (slot : Nat) : Prop :=
  ∀ v, (s.word slot .desc).yield = some v → ∃ d, decodeDesc v = some d ∧
    ∀ lo hi, (s.word slot .low).yield = some lo → (s.word slot .high).yield = some hi → limitsCrossed d.policy lo hi = false

/-- Every descriptor record of the store, and every record that a DESC_WRITE at a bank or held back carries, is one the checks accept
(R31, R45). -/
structure DescriptorsAdmitted (s : State) : Prop where
  canonical : Store.wf s.store = true
  store : ∀ slot, s.recordAdmitted slot
  pending : ∀ op, (op ∈ s.heldBack ∨ ∃ b, op ∈ (s.bank b).ops) → ∀ desc low high, op.act = .descWrite desc low high →
    ∃ d, decodeDesc desc = some d ∧ limitsCrossed d.policy low high = false

/-- The assembler holds as many body bytes as it has collected, of a LEN of 2 to 80 (R124). -/
def Assembler.sound : Assembler → Prop
  | .hunt => True
  | .length => True
  | .body len left got => 2 ≤ len.toNat ∧ len.toNat ≤ 80 ∧ 1 ≤ left ∧ got.length + left = len.toNat
  | .check len got => 2 ≤ len.toNat ∧ len.toNat ≤ 80 ∧ got.length = len.toNat

/-- The link side and the events of a port: the assembler sound and its gap timer stopped in HUNT (R124, R126), at most four
queued frames of 2 to 80 bytes (R129), no flag for the derived kinds (R159), group 0 in no loaded set (R161). -/
structure PortState.bounded (p : PortState) : Prop where
  assembler : p.asm.sound
  gap : p.asm = .hunt → p.gapTimer = none
  queue : p.queue.length ≤ 4
  frames : ∀ f ∈ p.queue, 2 ≤ f.length ∧ f.length ≤ 80
  derived : p.sticky.getLsbD 2 = false ∧ p.sticky.getLsbD 4 = false
  loaded : p.loaded.getLsbD 0 = false

/-- Every port is bounded. -/
def PortsBounded (s : State) : Prop := ∀ n, (s.port n).bounded

end Sys2Proof.Machine
end

