-- ==== Sys2Proof/Certificates/Slice0/Obligations.lean ====
section
/-! DEFINITION. The statements for the provers, in the order of OBLIGATIONS.json. -/

section ObligationStatements

open Sys2Proof Sys2Proof.Machine

/-! ## The queue of commands -/

/-- A step carries out the command at the front of the queue on the queue's rest; an empty queue leaves the part as it is
(the model's choice, log 2). -/
def Obligations.StepTakesFrontCommand : Prop :=
  (∀ (c : Instr) (rest : List Instr) (s : State),
      step { s with pending := c :: rest } = exec c { s with pending := rest })
    ∧ ∀ s : State, s.pending = [] → step s = .next s

/-- No command touches the queue of commands. -/
def Obligations.CommandsLeaveTheQueue : Prop :=
  ∀ (c : Instr) (s t : State), exec c s = .next t → t.pending = s.pending

/-! ## Resets -/

/-- The rising edge of RESET (R173): every block at its cold value, the store's words as they were. State.reset is the part
after a cold reset with every ROLE pin low over an empty list of words (the model's choices, log 5 and log 6). -/
def Obligations.ColdResetPutsEveryBlockInItsColdState : Prop :=
  (∀ (roles : BitVec 4) (s : State), ∃ t, exec (.coldReset roles) s = .next t ∧
      t.store = s.store ∧ t.resetLow = false ∧
      (∀ b, t.bank b = { phase := .init, waiting := [], lastGranted := 3, waitCount := 0, fillRow := 0 }) ∧
      t.heldBack = [] ∧ t.freeList = List.range 512 ∧
      (∀ g, t.group g = { mode := .manual, armSet := 0xF, state := .empty, list := [], lastLoad := none }) ∧
      t.loadQueue = [] ∧ t.engine = none ∧
      t.load.transferred = 0 ∧ t.load.skipped = 0 ∧ t.load.firstSkipped = none ∧
      t.cycleNumber = 0 ∧ t.cycleTimer = none ∧ t.patrol = 0 ∧ t.scrubTimer = none ∧
      t.log = { corrected := none, uncorrectable := none, updated := false } ∧
      t.dev = { repair := .onAccess, guarantee := 4, scrubInterval := 64, scrubMask := 0, source := .request,
                period := 1000, poolLow := 32 } ∧
      t.startCause = .cold ∧ t.torn = none ∧
      (∀ n : Port, t.port n =
        { supervisor := roles.getLsbD n.val,
          cfg := { viewSize := 0, parity := .none, twoStops := false, divisor := 19, gapCount := 40, crcOn := true,
                   linkOn := true, watch := 0, holdLimit := 50, holdWaits := false, levels := Vector.replicate 11 0 },
          rx := .looking, asm := .hunt, gapTimer := none, queue := [], buf0 := .free, buf1 := .free, linkErrors := 0,
          ce := .idle, cache := [], sticky := EventKind.start.bit, loaded := 0 }) ∧
      t.arrivals = s.arrivals)
    ∧ ∀ s : State, exec (.coldReset 0) { s with store := [], arrivals := 0, pending := [] } = .next State.reset

/-- The falling edge of RESET (R173): operations abandoned, requests withdrawn, the fill stopped where it is, timers and
transmitters stopped, ALERT released. What is kept while the line is low is the model's choice (log 8). -/
def Obligations.ResetLineLowStopsThePart : Prop :=
  ∀ s : State, ∃ t, exec .resetLineLow s = .next t ∧ t.resetLow = true ∧
    (∀ b, (t.bank b).waiting = [] ∧ (∀ op, (t.bank b).phase ≠ .busy op) ∧
      ((s.bank b).phase = .init → (t.bank b).phase = .init) ∧ (t.bank b).fillRow = (s.bank b).fillRow) ∧
    t.heldBack = [] ∧ t.cycleTimer = none ∧ t.scrubTimer = none ∧
    (∀ n, (t.port n).gapTimer = none ∧ (∀ h, (t.port n).ce ≠ .holding h) ∧ (t.port n).sendingBuf = none ∧
      t.alertDriven n = false ∧ t.listens n = false) ∧
    t.store = s.store ∧ t.log = s.log ∧ t.dev = s.dev ∧ t.groups = s.groups ∧ t.freeList = s.freeList

/-- While RESET is low no command but a disturbance or an edge of RESET changes anything (R173). -/
def Obligations.StoppedPartTakesNoCommand : Prop :=
  ∀ (c : Instr) (s : State), s.resetLow = true → c.wf = true → (∀ slot w, c ≠ .disturbance slot w) →
    c ≠ .resetLineLow → (∀ roles, c ≠ .coldReset roles) → exec c s = .next s

/-- Warm reset (R174): what it keeps and what it clears, at the last byte of the RESET's response. That a receiver dropping a
character waits for the line is read from R130 and R136 (DEDUCED, log 13); that no request is held back any more is read from
R27 (DEDUCED, log 20). -/
def Obligations.WarmResetEffect : Prop :=
  ∀ (s : State) (n : Port) (k : BufId), s.resetLow = false → (s.port n).sendingBuf = some k →
    (s.port n).ce = .resetWait k .warm →
    ∃ t, exec (.lastByteLeaves n) s = .next t ∧
      t.store = s.store ∧ t.dev = s.dev ∧ t.cycleNumber = s.cycleNumber ∧ t.patrol = s.patrol ∧ t.log = s.log ∧
      t.resetLow = false ∧ t.arrivals = s.arrivals ∧
      (∀ b, t.bank b =
        { phase := .idle, waiting := [], lastGranted := 3, waitCount := 0, fillRow := (s.bank b).fillRow }) ∧
      t.heldBack = [] ∧ t.freeList = List.range 512 ∧ t.loadQueue = [] ∧ t.engine = none ∧
      t.load.transferred = 0 ∧ t.load.skipped = 0 ∧ t.load.firstSkipped = none ∧
      (∀ g, t.group g =
        { mode := (s.group g).mode, armSet := (s.group g).armSet, state := .empty, list := [], lastLoad := none }) ∧
      t.cycleTimer = (if s.dev.source = .timer then some s.dev.period.toNat else none) ∧
      t.scrubTimer = (if s.dev.scrubInterval = 0 then none else some s.dev.scrubInterval.toNat) ∧
      t.startCause = .warm ∧
      t.torn = s.engine.map (fun g =>
        { group := g, transferred := s.load.transferred,
          untransferred := s.load.skipped + (s.group g).list.length }) ∧
      ∀ m : Port, t.port m =
        { s.port m with
          rx := if (s.port m).rx = .taking then .waitHigh else (s.port m).rx
          asm := .hunt, gapTimer := none, queue := [], buf0 := .free, buf1 := .free, linkErrors := 0, ce := .idle,
          cache := [], loaded := 0
          sticky := if s.engine = none then EventKind.start.bit else EventKind.start.bit ||| EventKind.torn.bit }

/-- Port reset (R175): what it does to port m and at the banks, and that it touches nothing else; RESET PORT m brings it at
the last byte of its response, and the sending engine goes on. That a receiver dropping a character waits for the line is read
from R130 and R136 (DEDUCED, log 13), the mark on an operation in flight is the model's way to keep R17 (DEDUCED, log 14), and
that CEm's request held back goes is read from R26 (DEDUCED, log 20). -/
def Obligations.PortResetEffect : Prop :=
  (∀ (s : State) (n m : Port) (k : BufId), s.resetLow = false → (s.port n).sendingBuf = some k →
      (s.port n).ce = .resetWait k (.port m) →
      exec (.lastByteLeaves n) s = .next ((((s.bufferSent n k).portReset m).setEngine n .idle).serve n))
    ∧ ∀ (s : State) (m : Port),
      (s.portReset m).port m =
        { s.port m with
          rx := if (s.port m).rx = .taking then .waitHigh else (s.port m).rx
          asm := .hunt, gapTimer := none, queue := [], buf0 := .free, buf1 := .free, linkErrors := 0, ce := .idle,
          cache := [], loaded := 0, sticky := EventKind.start.bit } ∧
      (∀ j, j ≠ m → (s.portReset m).port j = s.port j) ∧
      (∀ b, ((s.portReset m).bank b).waiting = (s.bank b).waiting.filter (fun op => op.who != .ce m) ∧
        ((s.portReset m).bank b).lastGranted = (s.bank b).lastGranted ∧
        ((s.portReset m).bank b).waitCount = (s.bank b).waitCount ∧
        ((s.portReset m).bank b).fillRow = (s.bank b).fillRow ∧
        (∀ op, (s.bank b).phase = .busy op →
          ((s.portReset m).bank b).phase = .busy (if op.who = .ce m then { op with dropped := true } else op)) ∧
        ((∀ op, (s.bank b).phase ≠ .busy op) → ((s.portReset m).bank b).phase = (s.bank b).phase)) ∧
      s.portReset m = { s with
        banks := (s.portReset m).banks, ports := (s.portReset m).ports
        heldBack := s.heldBack.filter (fun op => op.who != .ce m) }

/-! ## Disturbances and pins -/

/-- A disturbance (R3) worsens one word by one step and changes nothing else. -/
def Obligations.DisturbanceWorsensOneWord : Prop :=
  ∀ (slot : Fin 4096) (w : WordName) (s : State), Store.wf s.store = true →
    ∃ t, exec (.disturbance slot w) s = .next t ∧
      (∀ v, s.word slot.val w = .clean v → t.word slot.val w = .correctable v) ∧
      (∀ v, s.word slot.val w = .correctable v → t.word slot.val w = .uncorrectable) ∧
      (s.word slot.val w = .uncorrectable → t.word slot.val w = .uncorrectable) ∧
      (∀ (i : Nat) (x : WordName), i ≠ slot.val ∨ x ≠ w → t.word i x = s.word i x) ∧
      { t with store := s.store } = s

/-- What makes a cycle event (R92, R93): an edge of LOAD in the selected direction, and an expiry of the cycle timer, which
starts a new period at once. A stopped timer does not expire (the model's choice, log 3). -/
def Obligations.CycleEventSources : Prop :=
  ∀ s : State, s.resetLow = false →
    (∀ e : Edge, exec (.loadEdge e) s =
      .next (if (s.dev.source = .lineRise ∧ e = .rising) ∨ (s.dev.source = .lineFall ∧ e = .falling) then s.cycleEvent
             else s)) ∧
    (∀ left, s.cycleTimer = some left →
      exec .cycleTimerExpiry s = .next { s with cycleTimer := some s.dev.period.toNat }.cycleEvent) ∧
    (s.cycleTimer = none → exec .cycleTimerExpiry s = .next s)

/-- One cycle event (R95): the number advances, an overrun is judged on the engine and the queue as they stood, every due
group is queued in ascending number, and an IDLE engine starts the load of the head. -/
def Obligations.CycleEventOrder : Prop :=
  ∀ s : State,
    let due := (List.finRange 63).filter (fun g =>
      (s.group g).state == .armed || ((s.group g).mode == .cyclic && (s.group g).state == .staging))
    let t := s.cycleEvent
    t.cycleNumber = s.cycleNumber + 1 ∧
    (∀ n, t.port n =
      if s.engine = none ∧ s.loadQueue = [] then s.port n
      else { s.port n with sticky := (s.port n).sticky ||| EventKind.cycleOverrun.bit }) ∧
    (∀ h, (t.group h).list = (s.group h).list ∧ (t.group h).mode = (s.group h).mode ∧
      (t.group h).armSet = (s.group h).armSet ∧ (t.group h).lastLoad = (s.group h).lastLoad) ∧
    (match s.engine, s.loadQueue ++ due with
      | none, g :: rest =>
        t.engine = some g ∧ t.loadQueue = rest ∧
        t.load = { cycle := s.cycleNumber + 1, transferred := 0, skipped := 0, firstSkipped := none } ∧
        (∀ h, (t.group h).state = if h = g then .loading else if h ∈ due then .queued else (s.group h).state) ∧
        (match (s.group g).list with
          | e :: _ =>
            let first := s.place { who := .load, slot := e.point, act := .transfer, dropped := false }
            t.banks = first.banks ∧ t.heldBack = first.heldBack
          | [] => t.banks = s.banks ∧ t.heldBack = s.heldBack)
      | e, q =>
        t.engine = e ∧ t.loadQueue = q ∧ t.load = s.load ∧
        (∀ h, (t.group h).state = if h ∈ due then .queued else (s.group h).state) ∧ t.banks = s.banks ∧
        t.heldBack = s.heldBack) ∧
    t.store = s.store ∧ t.freeList = s.freeList ∧ t.cycleTimer = s.cycleTimer ∧ t.patrol = s.patrol ∧
    t.scrubTimer = s.scrubTimer ∧ t.log = s.log ∧ t.dev = s.dev ∧ t.startCause = s.startCause ∧ t.torn = s.torn ∧
    t.resetLow = s.resetLow ∧ t.arrivals = s.arrivals

/-- The slot choice at an expiry of the scrub timer (R109, R110). -/
def Obligations.ScrubSlotChoice : Prop :=
  ∀ (s : State) (left : Nat), s.resetLow = false → s.scrubTimer = some left → s.patrol ≤ 4095 →
    let s1 := { s with
      scrubTimer := if s.dev.scrubInterval = 0 then none else some s.dev.scrubInterval.toNat }
    let scrub := fun slot : Nat => ({ who := .scrub, slot := slot, act := .scrub, dropped := false } : BankOp)
    let masked := fun slot : Nat => s.dev.scrubMask.getLsbD (slot / 256)
    (s.scrubOutstanding = true ∨ s.dev.scrubMask = 0xFFFF → exec .scrubTimerExpiry s = .next s1) ∧
    (s.scrubOutstanding = false →
      (∀ slot, s.patrol ≤ slot → slot ≤ 4095 → masked slot = false →
        (∀ j, s.patrol ≤ j → j < slot → masked j = true) →
        exec .scrubTimerExpiry s = .next (s1.place (scrub slot))) ∧
      ((∀ j, s.patrol ≤ j → j ≤ 4095 → masked j = true) →
        ∀ slot, slot ≤ 4095 → masked slot = false → (∀ j, j < slot → masked j = true) →
        exec .scrubTimerExpiry s =
          .next (({ s1 with patrol := 0 }.raiseAll .scrubPass).place (scrub slot))))

/-- The expiry of a hold timer (R104): WAIT goes on holding, ABANDON answers the point EXPIRED and goes on with the run. -/
def Obligations.HoldTimerExpires : Prop :=
  ∀ (s : State) (n : Port) (h : Hold), s.resetLow = false → (s.port n).ce = .holding h →
    (∀ left, h.timer = some left →
      ((s.port n).cfg.holdWaits = true →
        exec (.holdTimerExpiry n) s =
          .next ((s.raise n .holdExpired).setEngine n (.holding { h with timer := none }))) ∧
      ((s.port n).cfg.holdWaits = false →
        exec (.holdTimerExpiry n) s =
          .next (((s.raise n .holdExpired).goOn n
            (h.run.settle { status := .expired, corrected := h.run.corrected, fromStaged := false, value := 0xFFFFFFFF,
                            group := h.group.num, cycle := h.cycle })).serve n))) ∧
    (h.timer = none → exec (.holdTimerExpiry n) s = .next s)

/-! ## Links -/

/-- START_BIT, GAP_EXPIRY and LINE_RETURN_HIGH (R122, R126): what each changes on its port, and nothing else. That a receiver
follows the line's return while its link is disabled is the model's choice (DESIGN CHOICE, log 23). -/
def Obligations.LinkLineEvents : Prop :=
  ∀ (s : State) (n : Port),
    (s.listens n = true → (s.port n).rx = .looking →
      exec (.startBit n) s = .next (s.setPort n { s.port n with rx := .taking, gapTimer := none })) ∧
    (s.resetLow = false → ∀ left, (s.port n).gapTimer = some left →
      exec (.gapExpiry n) s =
        .next (s.setPort n { s.port n with
          linkErrors := (s.port n).linkErrors ||| 0x04, asm := .hunt, gapTimer := none })) ∧
    (s.resetLow = false → (s.port n).rx = .waitHigh →
      exec (.lineReturnHigh n) s = .next (s.setPort n { s.port n with rx := .looking }))

/-- The checks of a character (R122) and what a character that fails one does (R123). -/
def Obligations.FailedCharacterIsDropped : Prop :=
  (∀ (d : Byte) (p : Bool),
      let ones := (List.range 8).countP (fun i => d.getLsbD i) + p.toNat
      parityPasses .none d p = true ∧ (parityPasses .even d p = true ↔ ones % 2 = 0) ∧
        (parityPasses .odd d p = true ↔ ones % 2 = 1)) ∧
  (∀ a b : Bool, stopPasses false a b = a ∧ stopPasses true a b = (a && b)) ∧
  ∀ (s : State) (n : Port) (d : Byte) (p s1 s2 : Bool), s.listens n = true → (s.port n).rx = .taking →
    let c := (s.port n).cfg
    let parityOk := parityPasses c.parity d p
    let stopOk := stopPasses c.twoStops s1 s2
    let rx := if (if c.twoStops then s2 else s1) then Receiver.looking else .waitHigh
    (parityOk && stopOk) = false →
    exec (.characterArrival n d p s1 s2) s =
      .next (s.setPort n
        (if (s.port n).asm = .hunt then { s.port n with rx := rx }
         else { s.port n with
           rx := rx
           linkErrors := (s.port n).linkErrors ||| ((if parityOk then 0 else 0x01) ||| (if stopOk then 0 else 0x02))
           asm := .hunt, gapTimer := none }))

/-- The frame assembler (R124, R125, R128): each state and the character it takes. The gap timer holds gap count x
(divisor + 1) half microseconds (R121, R126). -/
def Obligations.AssemblerTakesCharacter : Prop :=
  ∀ (s : State) (n : Port) (d : Byte) (p s1 s2 : Bool), s.listens n = true → (s.port n).rx = .taking →
    (s.port n).accepts d p s1 s2 →
    let q := s.port n
    let gap := some (q.cfg.gapCount.toNat * (q.cfg.divisor.toNat + 1))
    exec (.characterArrival n d p s1 s2) s = .next
      (match q.asm with
        | .hunt =>
          if d = 0x5B then s.setPort n { q with rx := .looking, asm := .length, gapTimer := gap }
          else s.setPort n { q with rx := .looking }
        | .length =>
          if 2 ≤ d.toNat ∧ d.toNat ≤ 80 then
            s.setPort n { q with rx := .looking, asm := .body d d.toNat [], gapTimer := gap }
          else
            s.setPort n { q with
              rx := .looking, linkErrors := q.linkErrors ||| 0x08, asm := .hunt, gapTimer := none }
        | .body len left got =>
          if left ≤ 1 then s.setPort n { q with rx := .looking, asm := .check len (got ++ [d]), gapTimer := gap }
          else s.setPort n { q with rx := .looking, asm := .body len (left - 1) (got ++ [d]), gapTimer := gap }
        | .check len got =>
          if q.cfg.crcOn = true ∧ d ≠ crcOf (len :: got) then
            s.setPort n { q with
              rx := .looking, linkErrors := q.linkErrors ||| 0x10, asm := .hunt, gapTimer := none }
          else s.goodFrame n got)

/-- The CRC of a frame (R127): an 8-bit register from FFh, each byte added by exclusive-or and stepped eight times with 2Fh;
a response on the line carries the CRC of its LEN and body. -/
def Obligations.FrameCrc : Prop :=
  let step := fun r : Nat => if 128 ≤ r then (2 * r % 256) ^^^ 0x2F else 2 * r
  (crcOf []).toNat = 0xFF ∧
  (∀ (bs : List Byte) (b : Byte), (crcOf (bs ++ [b])).toNat = Nat.iterate step 8 ((crcOf bs).toNat ^^^ b.toNat)) ∧
  ∀ r : Response,
    let covered := BitVec.ofNat 8 (3 + r.body.length) :: r.tag :: r.status :: r.summary :: r.body
    r.wire = 0x5B :: covered ++ [crcOf covered]

/-- A request row is the arrival of the frame's last character (log 1): the character in CHECK that passes does what the
row does. -/
def Obligations.RequestRowIsFramePassage : Prop :=
  ∀ (c : Instr) (n : Port) (f : List Byte) (s : State) (d : Byte) (p s1 s2 : Bool) (len : Byte),
    frameOf c = some (n, f) → f.length ≤ 80 → s.listens n = true → (s.port n).rx = .taking →
    (s.port n).asm = .check len f → (s.port n).accepts d p s1 s2 →
    ((s.port n).cfg.crcOn = true → d = crcOf (len :: f)) →
    exec (.characterArrival n d p s1 s2) s = exec c s

/-- A passed frame that CEn cannot take joins the queue of four or is dropped with QUEUE_FULL (R129); a link that is disabled
or a part with RESET low takes no frame (R135, R173). -/
def Obligations.PassedFrameIsQueuedOrDropped : Prop :=
  ∀ (c : Instr) (n : Port) (f : List Byte) (s : State), frameOf c = some (n, f) → f.length ≤ 80 →
    let q := s.port n
    (s.listens n = false → exec c s = .next s) ∧
    (s.listens n = true → q.ce ≠ .idle ∨ q.freeBuf = none →
      (q.queue.length ≤ 3 →
        exec c s = .next (s.setPort n { q with
          rx := .looking, asm := .hunt, gapTimer := none, queue := q.queue ++ [f] })) ∧
      (4 ≤ q.queue.length →
        exec c s = .next (s.setPort n { q with
          rx := .looking, asm := .hunt, gapTimer := none, linkErrors := q.linkErrors ||| 0x20 })))

/-- The last byte of a response leaves (R132): its buffer becomes FREE, a FILLED buffer starts under the settings in force,
and CEn takes what it can; taking is R139's. -/
def Obligations.LastByteFreesBuffer : Prop :=
  (∀ (s : State) (n : Port) (k : BufId), s.resetLow = false → (s.port n).sendingBuf = some k →
      (∀ scope, (s.port n).ce ≠ .resetWait k scope) →
      exec (.lastByteLeaves n) s = .next ((s.bufferSent n k).serve n)) ∧
  (∀ (s : State) (n : Port) (k j : BufId), j ≠ k → (∀ r form, (s.port n).buf j ≠ .sending r form) →
      s.bufferSent n k = s.setPort n (((s.port n).setBuf k .free).setBuf j
        (match (s.port n).buf j with
          | .filled r =>
            if (s.port n).cfg.linkOn then
              .sending r { parity := (s.port n).cfg.parity, twoStops := (s.port n).cfg.twoStops,
                           divisor := (s.port n).cfg.divisor }
            else .filled r
          | x => x))) ∧
  (∀ (s : State) (n : Port) (k : BufId) (f : List Byte) (rest : List (List Byte)),
      (s.port n).ce = .idle → (s.port n).queue = f :: rest → (s.port n).freeBuf = some k →
      s.serve n = ((s.setPort n { (s.port n).setBuf k .reserved with queue := rest }).runFrame n f).serve n) ∧
  ∀ (s : State) (n : Port), (s.port n).ce ≠ .idle ∨ (s.port n).queue = [] ∨ (s.port n).freeBuf = none → s.serve n = s

/-! ## Request checks and responses -/

/-- The request checks of R141 in their order, for every request row: NOTREADY, BADOP, BADPARAM, ROLE, then the request. A
refused request changes nothing but the buffer it fills. The frames of the rows carry the codes of 13.3. -/
def Obligations.RequestChecksInOrder : Prop :=
  (∀ (c : Instr) (n : Port) (tag op : Byte) (ps : List Byte) (s : State) (k : BufId),
      frameOf c = some (n, tag :: op :: ps) → ps.length + 2 ≤ 80 → s.listens n = true → (s.port n).ce = .idle →
      (s.port n).queue = [] → (s.port n).freeBuf = some k →
      exec c s = .next
        (if s.ready = false then (s.taking n k).respond n tag .notReady []
         else
          match requestDecoder op with
          | none => (s.taking n k).respond n tag .badOp []
          | some decode =>
            match decode ps with
            | none => (s.taking n k).respond n tag .badParam []
            | some r =>
              if roleAllows (s.port n).supervisor n r then (s.taking n k).runRequest n tag r
              else (s.taking n k).respond n tag .role [])) ∧
  (∀ op : Byte, requestDecoder op = none ↔ op ∉ requestCodes) ∧
  (∀ (n : Port) (tag : Byte) (ps : List Byte),
    [Instr.probe n tag ps, .status n tag ps, .clear n tag ps, .loaded n tag ps, .read n tag ps, .readStamped n tag ps,
      .stage n tag ps, .post n tag ps, .discard n tag ps, .groupStatus n tag ps, .cycle n tag ps, .descRead n tag ps,
      .descWrite n tag ps, .groupWrite n tag ps, .mapRead n tag ps, .mapWrite n tag ps, .flush n tag ps,
      .settingRead n tag ps, .logRead n tag ps, .logClear n tag ps].map frameOf =
    ([0x01, 0x02, 0x03, 0x04, 0x10, 0x11, 0x12, 0x13, 0x21, 0x22, 0x23, 0x30, 0x31, 0x32, 0x38, 0x39, 0x3A, 0x40, 0x42,
      0x43] : List Byte).map (fun op => some (n, tag :: op :: ps)) ∧
    (∀ g : Byte, frameOf (.armNow n tag g ps) = some (n, tag :: 0x20 :: g :: 1 :: ps) ∧
      frameOf (.armNext n tag g ps) = some (n, tag :: 0x20 :: g :: 0 :: ps)) ∧
    (∀ (m : Byte) (i : Item), frameOf (settingRow n tag m ps i) = some (n, tag :: 0x41 :: i.code :: m :: ps)) ∧
    frameOf (.resetWarm n tag ps) = some (n, tag :: 0x4F :: 0x10 :: ps) ∧
    (∀ scope : Byte, frameOf (.resetPort n tag scope ps) = some (n, tag :: 0x4F :: scope :: ps)) ∧
    ∀ op : Byte, frameOf (.unknownOp n tag op ps) = some (n, tag :: op :: ps)) ∧
  ∀ (n : Port) (tag op : Byte) (ps : List Byte) (s : State) (k : BufId),
    (Instr.unknownOp n tag op ps).wf = true → s.takes n k →
    exec (.unknownOp n tag op ps) s = .next ((s.taking n k).respond n tag .badOp [])

/-- Step 3 of the request checks (R142, R144, R170, R171, R178, 13.2 to 13.4), a request that fails it being refused BADPARAM:
the parameter lengths, then the ranges of all fields in bytes as sent, and that what is taken is what was sent. An absent map
entry is taken as 0, and a complement that does not match is taken as such. -/
def Obligations.ParameterLengthsAreExact : Prop :=
  (∀ (op : Byte) (decode : List Byte → Option Request) (ps : List Byte) (r : Request),
    requestDecoder op = some decode → decode ps = some r →
    ps.length =
      (if op ∈ [0x01, 0x02, 0x04, 0x23, 0x42, 0x43] then 0
       else if op ∈ [0x21, 0x22, 0x3A] then 1
       else if op ∈ [0x20, 0x30, 0x38, 0x40, 0x4F] then 2
       else if op ∈ [0x03, 0x10, 0x11, 0x32] then 3
       else if op ∈ [0x12, 0x13] then
        3 + (if (ps.getD 2 0).getLsbD 5 then 4 else 0) + 4 * ((ps.getD 2 0).toNat % 16 + 1)
       else if op = 0x31 then 14
       else if op = 0x39 then 6
       else
        match itemOfCode (ps.getD 0 0) with
        | some i => 2 + i.len + (if i = .crcEnforcement then 1 else 0)
        | none => 0)) ∧
  (∀ (op : Byte) (decode : List Byte → Option Request) (ps : List Byte) (r : Request),
    requestDecoder op = some decode → decode ps = some r →
    let field := fun k : Nat => (ps.getD k 0).toNat
    let number := fun bs : List Byte => bs.foldl (fun a b => 256 * a + b.toNat) 0
    let group := 1 ≤ field 0 ∧ field 0 ≤ 63
    let item := fun port : Nat => (field 0 ∈ [0x01, 0x02, 0x03, 0x04, 0x05, 0x06, 0x07] ∧ port = 0) ∨
      ((field 0 ∈ [0x10, 0x11, 0x12, 0x13, 0x14, 0x15, 0x16, 0x20, 0x21, 0x22] ∨ (0x30 ≤ field 0 ∧ field 0 ≤ 0x3A)) ∧
        port ≤ 3)
    (op = 0x03 → field 0 < 64 ∧ number (ps.drop 1) < 2048 ∧
      (ps.getD 2 0).getLsbD 2 = false ∧ (ps.getD 2 0).getLsbD 4 = false) ∧
    (op ∈ [0x10, 0x11] → field 2 < 128 ∧ (ps.getD 2 0).getLsbD 5 = false) ∧
    (op ∈ [0x12, 0x13] → field 2 < 64) ∧
    (op = 0x20 → group ∧ field 1 ≤ 1) ∧
    (op ∈ [0x21, 0x22] → group) ∧
    (op = 0x32 → group ∧ field 1 ≤ 1 ∧ field 2 < 16) ∧
    (op ∈ [0x30, 0x31] → number (ps.take 2) ≤ 3839) ∧
    (op = 0x31 → ∃ d, decodeDesc (BitVec.ofNat 32 (number ((ps.drop 2).take 4))) = some d) ∧
    (op ∈ [0x38, 0x39] → field 0 ≤ 3 ∧ field 1 ≤ 63) ∧
    (op = 0x39 → 0x80000000 ≤ number (ps.drop 2) → number (ps.drop 2) < 0x80000800) ∧
    (op = 0x3A → field 0 ≤ 3) ∧
    (op ∈ [0x40, 0x41] → item (field 1)) ∧
    (op = 0x41 →
      let c := field 0
      let x := number ((ps.drop 2).take (if c ∈ [0x03, 0x04, 0x06, 0x07] then 2 else if c = 0x20 then 8 else 1))
      (c ∈ [0x01, 0x15, 0x16, 0x22] → x ≤ 1) ∧ (c = 0x02 → x ∈ [1, 2, 4, 8]) ∧ (c = 0x05 → x ≤ 3) ∧
      (c ∈ [0x06, 0x21] → 1 ≤ x) ∧ (c = 0x07 → x ≤ 511) ∧ (c = 0x10 → x ≤ 64) ∧ (c = 0x11 → x ≤ 2) ∧
      (c = 0x12 → 1 ≤ x ∧ x ≤ 2) ∧ (c = 0x14 → 12 ≤ x) ∧ (c = 0x20 → x % 2 = 0) ∧ (0x30 ≤ c → x ≤ 7)) ∧
    (op = 0x4F → field 0 ≤ 3 ∨ field 0 = 0x10)) ∧
  ∀ (op : Byte) (decode : List Byte → Option Request) (ps : List Byte) (r : Request),
    requestDecoder op = some decode → decode ps = some r →
    r.wf = true ∧ r.op = op ∧
    match r with
    | .mapWrite target page entry => ∃ sent : Value,
        ps = [BitVec.ofNat 8 target.val, BitVec.ofNat 8 page] ++ valueBytes sent ∧
        entry = if sent.getLsbD 31 then sent else 0
    | .settingWrite _ _ v false => ∃ co : Byte, co ≠ ~~~(v.setWidth 8) ∧ ps = r.params.dropLast ++ [co]
    | .reset scope false => ∃ co : Byte,
        co ≠ ~~~(match scope with
          | .warm => (0x10 : Byte)
          | .port m => BitVec.ofNat 8 m.val) ∧ ps = r.params.dropLast ++ [co]
    | _ => ps = r.params

/-- The role check (R143): which requests a supervisor and a member may make, the own-port items being those of codes 20h and
above. -/
def Obligations.RoleTable : Prop :=
  ∀ (supervisor : Bool) (n : Port) (r : Request),
    roleAllows supervisor n r =
      (match r with
        | .cycle | .descWrite _ _ _ _ _ | .groupWrite _ _ _ | .mapWrite _ _ _ | .logClear | .reset _ _ => supervisor
        | .flush target => supervisor || target == n
        | .settingWrite i port _ _ => if 0x20 ≤ i.code.toNat then port == n else supervisor
        | _ => true)

/-- Completing a response (R131, R132, R140, 13.2): TAG, status, summary byte and body into the RESERVED buffer, CEn IDLE, and
an IDLE transmitter starts it at once; nothing but port n's buffers and engine changes. A request whose port reset has freed its
buffer leaves no response, as the own link disable does (R135). -/
def Obligations.ResponseIsCompleted : Prop :=
  (∀ (s : State) (n : Port) (k : BufId) (tag : Byte) (st : FrameStatus) (body : List Byte),
    (s.port n).reservedBuf = some k →
    let t := s.respond n tag st body
    let code : Byte := match st with
      | .ok => 0
      | .notReady => 1
      | .badOp => 2
      | .badParam => 3
      | .role => 4
      | .busy => 5
      | .empty => 6
      | .pairFail => 7
      | .range => 8
      | .fault => 9
      | .denied => 10
    let r : Response := { tag := tag, status := code, summary := s.summaryByte n, body := body }
    t = s.setPort n (t.port n) ∧
    t.port n = { s.port n with ce := .idle, buf0 := (t.port n).buf0, buf1 := (t.port n).buf1 } ∧
    ((t.port n).buf k).response = some r ∧
    (∀ j, j ≠ k → ((t.port n).buf j).response = ((s.port n).buf j).response) ∧
    ((s.port n).sendingBuf.isSome = true → (t.port n).buf k = .filled r ∧ ∀ j, j ≠ k → (t.port n).buf j = (s.port n).buf j) ∧
    ((s.port n).cfg.linkOn = true → (s.port n).sendingBuf = none → (s.port n).filledBuf = none →
      (t.port n).buf k = .sending r { parity := (s.port n).cfg.parity, twoStops := (s.port n).cfg.twoStops,
                                      divisor := (s.port n).cfg.divisor })) ∧
  (∀ (s : State) (n : Port) (tag : Byte) (st : FrameStatus) (body : List Byte), (s.port n).reservedBuf = none →
    s.respond n tag st body = s.setPort n { s.port n with ce := .idle }) ∧
  ∀ (s : State) (n : Port) (tag : Byte) (st : FrameStatus) (body : List Byte), (s.port n).cfg.linkOn = true →
    (s.writeItem .linkEnable n 0).respond n tag st body = s.writeItem .linkEnable n 0

/-- The event kinds by their codes, and a raise, which sets that one flag on one port or on every port and nothing else (R157,
R158); the top event, ALERT and the summary byte (R159, R162 to R164, 13.1). -/
def Obligations.TopEventAndSummary : Prop :=
  (∀ kind : EventKind,
      let code : Nat := match kind with
        | .start => 0
        | .torn => 1
        | .linkError => 2
        | .holdExpired => 3
        | .groupLoaded => 4
        | .loadPartial => 5
        | .cycleOverrun => 6
        | .poolLow => 7
        | .eccCorrected => 8
        | .eccUncorrectable => 9
        | .scrubPass => 10
      (∀ k : Fin 11, kind.bit.getLsbD k.val = decide (k.val = code)) ∧
      (∀ p : PortState, p.raise kind = { p with sticky := p.sticky ||| BitVec.twoPow 11 code }) ∧
      ∀ s : State,
        (∀ n, s.raise n kind = s.setPort n { s.port n with sticky := (s.port n).sticky ||| BitVec.twoPow 11 code }) ∧
        (∀ n, (s.raiseAll kind).port n = { s.port n with sticky := (s.port n).sticky ||| BitVec.twoPow 11 code }) ∧
        s.raiseAll kind = { s with ports := (s.raiseAll kind).ports }) ∧
  (∀ (p : PortState) (k : Fin 11),
      p.pendingSet.getLsbD k.val = true ↔
        p.sticky.getLsbD k.val = true ∨ (k.val = 2 ∧ p.linkErrors ≠ 0) ∨ (k.val = 4 ∧ p.loaded ≠ 0)) ∧
  (∀ p : PortState,
      (p.topEvent = 15 ∧ ∀ k : Fin 11, p.pendingSet.getLsbD k.val = true → (p.cfg.levels[k]).val = 0) ∨
      ∃ k : Fin 11, p.topEvent = k.val ∧ p.pendingSet.getLsbD k.val = true ∧ 1 ≤ (p.cfg.levels[k]).val ∧
        ∀ j : Fin 11, p.pendingSet.getLsbD j.val = true →
          (p.cfg.levels[j]).val < (p.cfg.levels[k]).val ∨
            ((p.cfg.levels[j]).val = (p.cfg.levels[k]).val ∧ k.val ≤ j.val)) ∧
  ∀ (s : State) (n : Port),
    (s.alertDriven n = true ↔
      s.resetLow = false ∧ ∃ k : Fin 11, (s.port n).pendingSet.getLsbD k.val = true ∧ 1 ≤ ((s.port n).cfg.levels[k]).val) ∧
    (s.summaryByte n).toNat =
      (s.port n).topEvent + (if (s.port n).linkErrors = 0 then 0 else 16) + (if s.engine = none then 0 else 32) +
        (if s.log.updated then 64 else 0) + (if (s.port n).supervisor then 128 else 0)

/-! ## Requests carried out whole -/

/-- PROBE and STATUS (R149, 13.4): what each returns; neither changes anything else. -/
def Obligations.ProbeAndStatusAnswers : Prop :=
  ∀ (s : State) (n : Port) (k : BufId) (tag : Byte), s.takes n k →
    exec (.probe n tag []) s =
      .next ((s.taking n k).respond n tag .ok
        [0xB6, 0x04, 0x40, 0x01, BitVec.ofNat 8 n.val, if (s.port n).supervisor then 1 else 0]) ∧
    exec (.status n tag []) s =
      .next ((s.taking n k).respond n tag .ok
        ([(s.port n).linkErrors.setWidth 8] ++ halfBytes ((s.port n).pendingSet.setWidth 16) ++
          [BitVec.ofNat 8 (s.port n).topEvent,
           BitVec.ofNat 8 ((List.range 64).countP (fun g => decide (1 ≤ g) && (s.port n).loaded.getLsbD g))] ++
          [if s.startCause = .cold then 0 else 1] ++
          (match s.torn with
            | none => [0, 0, 0, 0, 0]
            | some x => [BitVec.ofNat 8 (x.group.val + 1)] ++ natBytes2 x.transferred ++ natBytes2 x.untransferred) ++
          halfBytes s.cycleNumber ++ natBytes2 s.freeList.length ++
          [match s.engine with
            | none => 0
            | some g => BitVec.ofNat 8 (g.val + 1),
           BitVec.ofNat 8 s.loadQueue.length, if s.log.updated then 1 else 0]))

/-- CLEAR and LOADED (R150): CLEAR clears the named flags and kinds of the sending port, LOADED reports its loaded set in
ascending order and empties it. -/
def Obligations.ClearAndLoadedRows : Prop :=
  ∀ (s : State) (n : Port) (k : BufId) (tag : Byte), s.takes n k →
    let q := (s.taking n k).port n
    (∀ (flags : BitVec 6) (kinds : BitVec 11), kinds.getLsbD 2 = false → kinds.getLsbD 4 = false →
      exec (.clear n tag (flags.setWidth 8 :: halfBytes (kinds.setWidth 16))) s =
        .next (((s.taking n k).setPort n { q with
          linkErrors := q.linkErrors &&& ~~~flags, sticky := q.sticky &&& ~~~kinds }).respond n tag .ok [])) ∧
    exec (.loaded n tag []) s =
      .next (((s.taking n k).setPort n { q with loaded := 0 }).respond n tag .ok
        (let groups := (List.range 64).filter (fun g => decide (1 ≤ g) && q.loaded.getLsbD g)
         BitVec.ofNat 8 groups.length :: groups.map (BitVec.ofNat 8)))

/-- ARM and DISCARD (R87 to R89) by the arm set, then by the group's state and mode. ARM NOW queues the group or, with the load
engine IDLE, starts its load and places the first TRANSFER (R98); that an IDLE engine leaves no group waiting is LoadSound.idle
(LoadTablesStaySound). -/
def Obligations.ArmAndDiscardRows : Prop :=
  ∀ (s : State) (n : Port) (k : BufId) (tag : Byte) (g : GroupId), s.takes n k → (s.engine = none → s.loadQueue = []) →
    let u := s.taking n k
    let number := BitVec.ofNat 8 (g.val + 1)
    let answer := fun (c : Instr) (st : FrameStatus) (t : State) => exec c s = .next (t.respond n tag st [])
    let now := Instr.armNow n tag number []
    let next := Instr.armNext n tag number []
    let discard := Instr.discard n tag [number]
    let started := { u with
      engine := some g
      load := { cycle := s.cycleNumber, transferred := 0, skipped := 0, firstSkipped := none } }.setGroup g
        { s.group g with state := .loading }
    let armed := if s.engine = none then
        (match (s.group g).list with
          | e :: _ => started.place { who := .load, slot := e.point, act := .transfer, dropped := false }
          | [] => started)
      else { u with loadQueue := s.loadQueue ++ [g] }.setGroup g { s.group g with state := .queued }
    ((s.group g).armSet.getLsbD n.val = false → answer now .denied u ∧ answer next .denied u ∧ answer discard .denied u) ∧
    ((s.group g).armSet.getLsbD n.val = true →
      match (s.group g).state with
      | .empty => answer now .empty u ∧ answer next .empty u ∧ answer discard .ok u
      | .staging =>
        answer now .ok armed ∧
        answer next .ok (if (s.group g).mode = .manual then u.setGroup g { s.group g with state := .armed } else u) ∧
        answer discard .ok (u.discard g)
      | .armed => answer now .ok armed ∧ answer next .ok u ∧ answer discard .ok (u.discard g)
      | .queued => answer now .busy u ∧ answer next .busy u ∧ answer discard .ok (u.discard g)
      | .loading => answer now .busy u ∧ answer next .busy u ∧ answer discard .busy u)

/-- GROUP_STATUS, GROUP_WRITE and CYCLE (R90, R91, R96, 13.4). -/
def Obligations.GroupAndCycleRows : Prop :=
  ∀ (s : State) (n : Port) (k : BufId) (tag : Byte) (g : GroupId), s.takes n k →
    let u := s.taking n k
    let number := BitVec.ofNat 8 (g.val + 1)
    exec (.groupStatus n tag [number]) s =
      .next (u.respond n tag .ok
        ([number, if (s.group g).mode = .manual then 0 else 1, (s.group g).armSet.setWidth 8,
          match (s.group g).state with
          | .empty => 0
          | .staging => 1
          | .armed => 2
          | .queued => 3
          | .loading => 4] ++
          natBytes2 (s.group g).list.length ++
          [BitVec.ofNat 8 (if g ∈ s.loadQueue then s.loadQueue.idxOf g + 1 else 0)] ++
          (match (s.group g).lastLoad with
            | none => [0, 0, 0, 0, 0, 0, 0, 0xFF, 0xFF]
            | some l =>
              [if l.partialLoad then 2 else 1] ++ halfBytes l.cycle ++ natBytes2 l.transferred ++ natBytes2 l.skipped ++
                (match l.firstSkipped with
                  | none => [0xFF, 0xFF]
                  | some p => natBytes2 p)))) ∧
    ((s.port n).supervisor = true →
      (∀ (mode : GroupMode) (arms : BitVec 4),
        exec (.groupWrite n tag [number, if mode = .manual then 0 else 1, arms.setWidth 8]) s =
          .next (if (s.group g).state = .empty then
                  (u.updGroup g (fun r => { r with mode := mode, armSet := arms })).respond n tag .ok []
                 else u.respond n tag .busy [])) ∧
      exec (.cycle n tag []) s = .next (u.cycleEvent.respond n tag .ok (halfBytes (s.cycleNumber + 1))))

/-- DESC_READ, DESC_WRITE, MAP_READ and MAP_WRITE (R45, R48, R59, R65, R152): the one operation each asks for, and the RANGE
refusals. -/
def Obligations.DescriptorAndMapRequests : Prop :=
  ∀ (s : State) (n : Port) (k : BufId) (tag : Byte), s.takes n k →
    let u := s.taking n k
    let ask := fun (slot : Nat) (act : Act) =>
      (u.setEngine n (.waiting (.single tag))).place { who := .ce n, slot := slot, act := act, dropped := false }
    (∀ p, p ≤ 3839 → exec (.descRead n tag (natBytes2 p)) s = .next (ask p .descRead)) ∧
    (∀ (target : Port) (page : Nat), page ≤ 63 →
      exec (.mapRead n tag [BitVec.ofNat 8 target.val, BitVec.ofNat 8 page]) s =
        .next (ask (3840 + 64 * target.val + page) .mapRead)) ∧
    ((s.port n).supervisor = true →
      (∀ (p : Nat) (desc low high : Value) (d : Descriptor), p ≤ 3839 → decodeDesc desc = some d →
        exec (.descWrite n tag (natBytes2 p ++ valueBytes desc ++ valueBytes low ++ valueBytes high)) s =
          .next (if d.policy ≠ .none ∧ high.toInt < low.toInt then u.respond n tag .range []
                 else ask p (.descWrite desc low high))) ∧
      (∀ (target : Port) (page : Nat) (entry : Value), page ≤ 63 →
        (entry.getLsbD 31 = true → entry.extractLsb' 11 20 = 0) →
        exec (.mapWrite n tag (BitVec.ofNat 8 target.val :: BitVec.ofNat 8 page :: valueBytes entry)) s =
          .next (if entry.getLsbD 31 = true ∧ 240 ≤ (entry.extractLsb' 0 8).toNat then u.respond n tag .range []
                 else ask (3840 + 64 * target.val + page)
                  (.mapWrite target page (if entry.getLsbD 31 = true then entry else 0)))))

/-- FLUSH, LOG_READ and LOG_CLEAR (R64, R119, R120, 13.4). -/
def Obligations.FlushAndLogRows : Prop :=
  ∀ (s : State) (n : Port) (k : BufId) (tag : Byte), s.takes n k →
    let u := s.taking n k
    let entry := fun e : Option LogEntry =>
      match e with
      | none => ([0, 0, 0, 0] : List Byte)
      | some e => [1] ++ natBytes2 e.slot ++
          [BitVec.ofNat 8 (wordIndex e.word + 16 * (match e.source with
            | .ce m => m.val
            | .load => 4
            | .scrub => 5))]
    (∀ target : Port, (s.port n).supervisor = true ∨ target = n →
      exec (.flush n tag [BitVec.ofNat 8 target.val]) s =
        .next ((u.setPort target { u.port target with cache := [] }).respond n tag .ok [])) ∧
    exec (.logRead n tag []) s =
      .next ({ u with log := { s.log with updated := false } }.respond n tag .ok
        ([if s.log.updated then 1 else 0] ++ entry s.log.corrected ++ entry s.log.uncorrectable)) ∧
    ((s.port n).supervisor = true →
      exec (.logClear n tag []) s =
        .next ({ u with log := { s.log with uncorrectable := none, updated := false } }.respond n tag .ok []))

/-- RESET (R154): answered OK, CEn in RESET_WAIT on the buffer j that it had RESERVED for the response; a complement that
does not match is PAIRFAIL. -/
def Obligations.ResetRequestsWaitForTheirResponse : Prop :=
  ∀ (s : State) (n : Port) (k j : BufId) (tag : Byte), s.takes n k → (s.port n).supervisor = true →
    let u := s.taking n k
    (u.port n).reservedBuf = some j →
    (∀ co : Byte, exec (.resetWarm n tag [co]) s =
      .next (if co = 0xEF then (u.respond n tag .ok []).setEngine n (.resetWait j .warm)
             else u.respond n tag .pairFail [])) ∧
    ∀ (m : Port) (co : Byte), exec (.resetPort n tag (BitVec.ofNat 8 m.val) [co]) s =
      .next (if co = ~~~(BitVec.ofNat 8 m.val) then (u.respond n tag .ok []).setEngine n (.resetWait j (.port m))
             else u.respond n tag .pairFail [])

/-! ## Settings -/

/-- The settings table's codes, lengths and kinds (11.2). SETTING_READ returns an item as it stands; SETTING_WRITE of each item
applies a value of its range and answers OK, is refused ROLE where the role check does not allow it, and PAIRFAIL, without
effect, on any byte but the value's complement (R170, R171). -/
def Obligations.SettingRows : Prop :=
  (∀ i : Item,
    (i.code.toNat, i.len, i.kind) =
      match i with
      | .repairPolicy => (0x01, 1, .device)
      | .scrubGuarantee => (0x02, 1, .device)
      | .scrubInterval => (0x03, 2, .device)
      | .scrubMask => (0x04, 2, .device)
      | .cycleSource => (0x05, 1, .device)
      | .cyclePeriod => (0x06, 2, .device)
      | .poolLow => (0x07, 2, .device)
      | .viewSize => (0x10, 1, .supervisorPort)
      | .parity => (0x11, 1, .supervisorPort)
      | .stopBits => (0x12, 1, .supervisorPort)
      | .rateDivisor => (0x13, 1, .supervisorPort)
      | .gapCount => (0x14, 1, .supervisorPort)
      | .crcEnforcement => (0x15, 1, .supervisorPort)
      | .linkEnable => (0x16, 1, .supervisorPort)
      | .watchSet => (0x20, 8, .ownPort)
      | .holdLimit => (0x21, 1, .ownPort)
      | .holdAction => (0x22, 1, .ownPort)
      | .level k => (0x30 + k.val, 1, .ownPort)) ∧
  ∀ (s : State) (n : Port) (k : BufId) (tag : Byte) (i : Item) (m : Port) (v : BitVec 64) (co : Byte), s.takes n k →
    (i.kind = .device → m = 0) → i.inRange v = true → v.toNat < 2 ^ (8 * i.len) →
    let u := s.taking n k
    let pair := if i = .crcEnforcement then [co] else []
    exec (.settingRead n tag [i.code, BitVec.ofNat 8 m.val]) s =
      .next (u.respond n tag .ok ([i.code, BitVec.ofNat 8 m.val] ++ s.itemBytes m i)) ∧
    exec (settingRow n tag (BitVec.ofNat 8 m.val) (itemValueBytes i v ++ pair) i) s =
      .next (if (if i.kind = .ownPort then m = n else (s.port n).supervisor = true) then
              (if i = .crcEnforcement ∧ co ≠ ~~~(v.setWidth 8) then u.respond n tag .pairFail []
               else (u.writeItem i m v).respond n tag .ok [])
             else u.respond n tag .role [])

/-- A SETTING_WRITE is read back: the item holds the value written, in its length, and every other item of every port stays
as it was (R172). -/
def Obligations.SettingWriteReadsBack : Prop :=
  ∀ (s : State) (i j : Item) (m m' : Port) (v : BitVec 64), i.inRange v = true → v.toNat < 2 ^ (8 * i.len) →
    (s.writeItem i m v).itemBytes m' j =
      if j = i ∧ (m' = m ∨ i.kind = .device) then itemValueBytes i v else s.itemBytes m' j

/-- The effects that the items' own rules attach to a write (R63, R93, R109, R130, R135), and that a write of any other item
changes that item alone. A view size at or below the page of a fill in flight bars its insertion (R56, R63); the mark that says
so on the operation is the model's (log 14). That a receiver dropping a character waits for the line is read from R130 (DEDUCED,
log 13). -/
def Obligations.SettingWriteEffects : Prop :=
  ∀ (s : State) (m : Port) (v : BitVec 64),
    let q := s.port m
    let line := fun c : PortSettings => s.setPort m { q with
      cfg := c, rx := if q.rx = .taking then .waitHigh else q.rx, asm := .hunt, gapTimer := none }
    let own := fun c : PortSettings => s.setPort m { q with cfg := c }
    s.writeItem .repairPolicy m v = { s with dev := { s.dev with repair := if v = 0 then .onAccess else .scrubOnly } } ∧
    s.writeItem .scrubGuarantee m v = { s with dev := { s.dev with guarantee := v.setWidth 8 } } ∧
    s.writeItem .scrubInterval m v = { s with
      dev := { s.dev with scrubInterval := v.setWidth 16 }
      scrubTimer := if v.setWidth 16 = 0 then none else some (v.setWidth 16).toNat } ∧
    s.writeItem .scrubMask m v = { s with dev := { s.dev with scrubMask := v.setWidth 16 } } ∧
    (∀ src, src = (if v = 0 then CycleSource.request else if v = 1 then .lineRise else if v = 2 then .lineFall else .timer) →
      s.writeItem .cycleSource m v = { s with
        dev := { s.dev with source := src }
        cycleTimer := if src = .timer then (if s.dev.source = .timer then s.cycleTimer else some s.dev.period.toNat)
                      else none }) ∧
    s.writeItem .cyclePeriod m v = { s with
      dev := { s.dev with period := v.setWidth 16 }
      cycleTimer := if s.dev.source = .timer then some (v.setWidth 16).toNat else none } ∧
    s.writeItem .poolLow m v = { s with dev := { s.dev with poolLow := v.setWidth 16 } } ∧
    (let size := (v.setWidth 8 : Byte).toNat
     let t := s.writeItem .viewSize m v
     (∀ b, t.bank b = { s.bank b with
       phase := match (s.bank b).phase with
         | .busy op => .busy (match op.act with
           | .mapFill l _ => if op.who = .ce m ∧ size ≤ l then { op with act := .mapFill l false } else op
           | _ => op)
         | ph => ph }) ∧
     t = { s.setPort m { q with
         cfg := { q.cfg with viewSize := v.setWidth 8 }, cache := q.cache.filter (fun e => decide (e.logical < size)) } with
       banks := t.banks }) ∧
    s.writeItem .parity m v =
      line { q.cfg with parity := if v = 0 then .none else if v = 1 then .even else .odd } ∧
    s.writeItem .stopBits m v = line { q.cfg with twoStops := v == 2 } ∧
    s.writeItem .rateDivisor m v = line { q.cfg with divisor := v.setWidth 8 } ∧
    s.writeItem .gapCount m v = line { q.cfg with gapCount := v.setWidth 8 } ∧
    s.writeItem .crcEnforcement m v = line { q.cfg with crcOn := v == 1 } ∧
    s.writeItem .linkEnable m v =
      (if q.cfg.linkOn = (v == 1) then s
       else (s.portReset m).setPort m { (s.portReset m).port m with cfg := { q.cfg with linkOn := v == 1 } }) ∧
    s.writeItem .watchSet m v = own { q.cfg with watch := v } ∧
    s.writeItem .holdLimit m v = own { q.cfg with holdLimit := v.setWidth 8 } ∧
    s.writeItem .holdAction m v = own { q.cfg with holdWaits := v == 1 } ∧
    ∀ kind : Fin 11, s.writeItem (.level kind) m v = own { q.cfg with levels := q.cfg.levels.set kind (Fin.ofNat 8 v.toNat) }

/-! ## Point runs -/

/-- READ, READ_STAMPED, STAGE and POST begin their run at the start point with the accesses that their frame carries, 1 to 16
of them, and go on with it (R144, R145). -/
def Obligations.PointRunRowsBegin : Prop :=
  ∀ (s : State) (n : Port) (k : BufId) (tag : Byte) (start : Half) (down : Bool) (count : Nat), s.takes n k →
    1 ≤ count → count ≤ 16 →
    let begun := fun (shape : RecordShape) (todo : List PointAccess) =>
      (s.taking n k).goOn n
        { tag := tag, shape := shape, down := down, point := start, todo := todo, records := [], corrected := false }
    let head := fun prefer masked : Bool => halfBytes start ++
      [BitVec.ofNat 8 (count - 1 + (if down then 16 else 0) + (if masked then 32 else 0) + (if prefer then 64 else 0))]
    (∀ prefer, exec (.read n tag (head prefer false)) s = .next (begun .read (List.replicate count (.read prefer)))) ∧
    (∀ prefer, exec (.readStamped n tag (head prefer false)) s =
      .next (begun .stamped (List.replicate count (.read prefer)))) ∧
    ∀ values : List Value, values.length = count →
      exec (.stage n tag (head false false ++ values.flatMap valueBytes)) s =
        .next (begun .status (values.map (fun v => .stage v none))) ∧
      exec (.post n tag (head false false ++ values.flatMap valueBytes)) s =
        .next (begun .status (values.map (fun v => .post v none))) ∧
      ∀ mask : Value,
        exec (.stage n tag (head false true ++ valueBytes mask ++ values.flatMap valueBytes)) s =
          .next (begun .status (values.map (fun v => .stage v (some mask)))) ∧
        exec (.post n tag (head false true ++ valueBytes mask ++ values.flatMap valueBytes)) s =
          .next (begun .status (values.map (fun v => .post v (some mask))))

/-- The translation of a run's point in hand (R51, R54, R145): beyond the view UNMAPPED, on a miss a fill of map slot
3840 + 64n + l, on a hit the entry most recently used and, by its rights, the access asked for or DENIED; after the last
point the response. -/
def Obligations.PointTranslation : Prop :=
  ∀ (s : State) (n : Port) (r : PointRun),
    let i := r.point.toNat
    let refused := fun st : PointStatus => r.settle
      { status := st, corrected := r.corrected, fromStaged := false, value := 0xFFFFFFFF, group := 0, cycle := 0xFFFF }
    (r.todo = [] → s.goOn n r = s.respond n r.tag .ok r.records) ∧
    ∀ (a : PointAccess) (rest : List PointAccess), r.todo = a :: rest →
      (16 * (s.port n).cfg.viewSize.toNat ≤ i → s.goOn n r = s.goOn n (refused .unmapped)) ∧
      (i < 16 * (s.port n).cfg.viewSize.toNat →
        ((∀ e ∈ (s.port n).cache, e.logical ≠ i / 16) →
          s.goOn n r = (s.setEngine n (.waiting (.fill r (i / 16)))).place
            { who := .ce n, slot := 3840 + 64 * n.val + i / 16, act := .mapFill (i / 16) true, dropped := false }) ∧
        ∀ e ∈ (s.port n).cache, e.logical = i / 16 → ((s.port n).cache.map CacheEntry.logical).Nodup →
          let t := s.setPort n { s.port n with
            cache := e :: (s.port n).cache.filter (fun x => x.logical != i / 16) }
          let right := match a with
            | .read _ => 0
            | .stage _ _ => 1
            | .post _ _ => 2
          s.goOn n r =
            if e.rights.getLsbD right then
              (t.setEngine n (.waiting (.access r (16 * e.page.toNat + i % 16)))).place
                { who := .ce n, slot := 16 * e.page.toNat + i % 16, dropped := false,
                  act := match a with
                    | .read prefer => .read prefer
                    | .stage v mask => .stage v mask
                    | .post v mask => .post v mask }
            else t.goOn n (refused .denied))

/-- Fields of several bytes are sent most significant byte first (chapter 13). The record that a point leaves in the response
(R146, 13.2), and the point that follows it, modulo 65536 (R145). -/
def Obligations.RunRecordLayout : Prop :=
  (∀ (v : Value) (h : Half) (k : Nat),
    valueBytes v = [24, 16, 8, 0].map (fun i => v.extractLsb' i 8) ∧ halfBytes h = [8, 0].map (fun i => h.extractLsb' i 8) ∧
      natBytes2 k = [BitVec.ofNat 8 (k / 256), BitVec.ofNat 8 k]) ∧
  (∀ (i : Item) (v : BitVec 64), itemValueBytes i v = ((List.range i.len).map (fun j => v.extractLsb' (8 * j) 8)).reverse) ∧
  ∀ (r : PointRun) (x : PointResult),
    r.settle x =
      { r with
        point := if r.down then r.point - 1 else r.point + 1
        todo := r.todo.drop 1
        corrected := false
        records := r.records ++
          ([BitVec.ofNat 8 ((match x.status with
              | .ok => 0
              | .clamped => 1
              | .poisoned => 2
              | .fault => 3
              | .vacant => 4
              | .unmapped => 5
              | .mapFault => 6
              | .denied => 7
              | .range => 8
              | .busy => 9
              | .poolFull => 10
              | .expired => 11) + (if x.corrected then 16 else 0) + (if x.fromStaged then 32 else 0))]
            ++ match r.shape with
              | .read => valueBytes x.value
              | .stamped => valueBytes x.value ++ [BitVec.ofNat 8 x.group] ++ halfBytes x.cycle
              | .status => []) }

/-! ## Completions -/

/-- What a read of a word yields, what a repair leaves of it, and what a write does (R4 to R6): the one word CLEAN with the value
whatever its condition was, and nothing else. The end that completions share (R6, R10, R22): CORRECTABLE words read are written
back CLEAN under ON_ACCESS, the findings of the words read go to the error log in word order, each raising its kind on every
port, and the bank makes its grant decision by the K in force; nothing else changes. -/
def Obligations.CompletionEnd : Prop :=
  (∀ v : Value,
    ((Stored.clean v).yield = some v ∧ (Stored.correctable v).yield = some v ∧ Stored.uncorrectable.yield = none) ∧
    ((Stored.clean v).isCorrectable = false ∧ (Stored.correctable v).isCorrectable = true ∧
      Stored.uncorrectable.isCorrectable = false) ∧
    (Stored.clean v).repaired = .clean v ∧ (Stored.correctable v).repaired = .clean v ∧
      Stored.uncorrectable.repaired = .uncorrectable) ∧
  (∀ (s : State) (slot : Nat) (w : WordName) (v : Value), Store.wf s.store = true →
    let t := s.writeWord slot w v
    (∀ (i : Nat) (x : WordName), t.word i x = if i = slot ∧ x = w then .clean v else s.word i x) ∧
    Store.wf t.store = true ∧ t = { s with store := t.store }) ∧
  (∀ (s : State) (b : BankId), s.grantNext b = s.setBank b ((s.bank b).grantNext s.dev.guarantee.toNat)) ∧
  ∀ (z s : State) (b : BankId) (src : Requester) (slot : Nat) (reads : List WordName), Store.wf s.store = true →
    let t := z.endCompletion s b src slot reads
    let found := fun bad : Bool => reads.any (fun w =>
      match z.word slot w with
      | .clean _ => false
      | .correctable _ => !bad
      | .uncorrectable => bad)
    (∀ (i : Nat) (w : WordName), t.word i w =
      if s.dev.repair = .onAccess ∧ i = slot ∧ w ∈ reads then
        (match s.word i w with
          | .correctable v => .clean v
          | x => x)
      else s.word i w) ∧
    t.log = reads.foldl (fun l w =>
      match z.word slot w with
      | .clean _ => l
      | .correctable _ => { l with corrected := some { slot := slot, word := w, source := src }, updated := true }
      | .uncorrectable =>
        if l.uncorrectable = none then
          { l with uncorrectable := some { slot := slot, word := w, source := src }, updated := true }
        else l) s.log ∧
    (∀ n, t.port n = { s.port n with
      sticky := (s.port n).sticky ||| (if found false then EventKind.eccCorrected.bit else 0)
        ||| (if found true then EventKind.eccUncorrectable.bit else 0) }) ∧
    t.bank b = (s.bank b).grantNext s.dev.guarantee.toNat ∧ (∀ c, c ≠ b → t.bank c = s.bank c) ∧
    t = { s with store := t.store, log := t.log, ports := t.ports, banks := t.banks }

/-- READ_COMPLETION (R36 to R40, R102, R145, R147): FAULT, VACANT, or the word read, POISONED where it has no value, and the
run goes on; on a SETPOINT whose group is LOADING CEn holds, keeping run, slot, group and last-load cycle, with its hold timer
started. -/
def Obligations.ReadCompletionOutcomes : Prop :=
  ∀ (s : State) (b : BankId) (n : Port) (slot slot' : Nat) (prefer : Bool) (r : PointRun),
    s.inFlight b = some { who := .ce n, slot := slot, act := .read prefer, dropped := false } →
    (s.port n).ce = .waiting (.access r slot') →
    let ends := fun (reads : List WordName) (st : PointStatus) (fromStaged : Bool) (value : Value) (group : Nat)
        (cycle : Half) =>
      exec (.readCompletion b) s = .next
        (((s.endCompletion s b (.ce n) slot reads).goOn n (r.settle
          { status := st, corrected := r.corrected || reads.any (fun w => (s.word slot w).isCorrectable),
            fromStaged := fromStaged, value := value, group := group, cycle := cycle })).serve n)
    let gives := fun (w : WordName) (group : Nat) (cycle : Half) =>
      (∀ v, (s.word slot w).yield = some v → ends [.desc, w] .ok (w == .staged) v group cycle) ∧
      ((s.word slot w).yield = none → ends [.desc, w] .poisoned (w == .staged) 0xFFFFFFFF group cycle)
    ((s.word slot .desc).yield = none → ends [.desc] .fault false 0xFFFFFFFF 0 0xFFFF) ∧
    ∀ (v : Value) (d : Descriptor), (s.word slot .desc).yield = some v → decodeDesc v = some d →
      match d.kind with
      | .unused => ends [.desc] .vacant false 0xFFFFFFFF 0 0xFFFF
      | .reading => gives .live 0 0xFFFF
      | .constant => gives .live 0 0xFFFF
      | .setpoint g =>
        let cycle := match (s.group g).lastLoad with
          | some l => l.cycle
          | none => 0xFFFF
        if (s.group g).state = .loading then
          exec (.readCompletion b) s = .next
            ((s.endCompletion s b (.ce n) slot [.desc]).setEngine n
              (.holding { run := { r with corrected := r.corrected || (s.word slot .desc).isCorrectable }, group := g,
                          slot := slot, cycle := cycle, timer := some (s.port n).cfg.holdLimit.toNat }))
        else gives (if prefer = true ∧ s.marked slot = true then .staged else .live) (g.val + 1) cycle

/-- The fields of a descriptor word (R31, R178, 13.4): every bit that no field uses is 0, the group is 1 to 63 on a SETPOINT and
0 on every other kind. The limit check and the merge (R34, R43): signed comparison against LOW and HIGH by policy, and each bit
from the value sent where the mask is 1, from the base where it is 0. -/
def Obligations.LimitsAndMerge : Prop :=
  (∀ (v : Value) (d : Descriptor), decodeDesc v = some d ↔
    v.extractLsb' 2 2 = 0 ∧ v.extractLsb' 18 14 = 0 ∧ d.writers = v.extractLsb' 4 4 ∧
    (match d.kind with
      | .unused => v.extractLsb' 0 2 = 0 ∧ v.extractLsb' 8 8 = 0
      | .reading => v.extractLsb' 0 2 = 1 ∧ v.extractLsb' 8 8 = 0
      | .setpoint g => v.extractLsb' 0 2 = 2 ∧ (v.extractLsb' 8 8).toNat = g.val + 1
      | .constant => v.extractLsb' 0 2 = 3 ∧ v.extractLsb' 8 8 = 0) ∧
    (match d.policy with
      | .none => v.extractLsb' 16 2 = 0
      | .refuse => v.extractLsb' 16 2 = 1
      | .clamp => v.extractLsb' 16 2 = 2)) ∧
  (∀ low high v : Value, checkLimits .none low high v = .written v) ∧
  (∀ low high v : Value, checkLimits .refuse low high v =
    if low.toInt ≤ v.toInt ∧ v.toInt ≤ high.toInt then .written v else .outside) ∧
  (∀ low high v : Value, checkLimits .clamp low high v =
    if v.toInt < low.toInt then .clamped low else if high.toInt < v.toInt then .clamped high else .written v) ∧
  ∀ (mask v base : Value) (i : Nat), i < 32 →
    (mergeValue mask v base).getLsbD i = if mask.getLsbD i then v.getLsbD i else base.getLsbD i

/-- STAGE_COMPLETION (R36, R41, R43): the order of its refusals, and the admission outcomes with the write of STAGED. -/
def Obligations.StageCompletionOutcomes : Prop :=
  ∀ (s : State) (b : BankId) (n : Port) (slot slot' : Nat) (sent : Value) (mask : Option Value) (r : PointRun),
    s.inFlight b = some { who := .ce n, slot := slot, act := .stage sent mask, dropped := false } →
    (s.port n).ce = .waiting (.access r slot') →
    let ends := fun (t : State) (reads : List WordName) (st : PointStatus) =>
      exec (.stageCompletion b) s = .next
        (((s.endCompletion t b (.ce n) slot reads).goOn n (r.settle
          { status := st, corrected := r.corrected || reads.any (fun w => (s.word slot w).isCorrectable),
            fromStaged := false, value := 0xFFFFFFFF, group := 0, cycle := 0xFFFF })).serve n)
    ((s.word slot .desc).yield = none → ends s [.desc] .fault) ∧
    ∀ (v : Value) (d : Descriptor), (s.word slot .desc).yield = some v → decodeDesc v = some d →
      match d.kind with
      | .unused => ends s [.desc] .vacant
      | .reading => ends s [.desc] .denied
      | .constant => ends s [.desc] .denied
      | .setpoint g =>
        if d.writers.getLsbD n.val = false then ends s [.desc] .denied
        else
          let base := if s.marked slot = true then WordName.staged else .live
          let reads := [.desc] ++ (if d.policy = .none then [] else [.low, .high]) ++ (if mask = none then [] else [base])
          (d.policy ≠ .none → (s.word slot .low).yield = none ∨ (s.word slot .high).yield = none → ends s reads .fault) ∧
          ∀ low high : Value,
            (d.policy ≠ .none → (s.word slot .low).yield = some low ∧ (s.word slot .high).yield = some high) →
            (∀ m, mask = some m → (s.word slot base).yield = none → ends s reads .poisoned) ∧
            ∀ x : Value,
              (mask = none → x = sent) →
              (∀ m, mask = some m → ∃ w, (s.word slot base).yield = some w ∧ x = mergeValue m sent w) →
              let admits := fun (y : Value) (st : PointStatus) =>
                if (s.group g).state = .loading then ends s reads .busy
                else if s.marked slot = true then ends ((s.restage n slot).writeWord slot .staged y) reads st
                else if s.freeList = [] then ends s reads .poolFull
                else ends ((s.newStage n slot g).writeWord slot .staged y) reads st
              match checkLimits d.policy low high x with
              | .outside => ends s reads .range
              | .written y => admits y .ok
              | .clamped y => admits y .clamped

/-- POST_COMPLETION (R33, R36, R42, R43): the order of its refusals, and the write of LIVE. -/
def Obligations.PostCompletionOutcomes : Prop :=
  ∀ (s : State) (b : BankId) (n : Port) (slot slot' : Nat) (sent : Value) (mask : Option Value) (r : PointRun),
    s.inFlight b = some { who := .ce n, slot := slot, act := .post sent mask, dropped := false } →
    (s.port n).ce = .waiting (.access r slot') →
    let ends := fun (t : State) (reads : List WordName) (st : PointStatus) =>
      exec (.postCompletion b) s = .next
        (((s.endCompletion t b (.ce n) slot reads).goOn n (r.settle
          { status := st, corrected := r.corrected || reads.any (fun w => (s.word slot w).isCorrectable),
            fromStaged := false, value := 0xFFFFFFFF, group := 0, cycle := 0xFFFF })).serve n)
    let writes := fun policy : LimitPolicy =>
      let reads := [.desc] ++ (if policy = .none then [] else [.low, .high]) ++ (if mask = none then [] else [.live])
      (policy ≠ .none → (s.word slot .low).yield = none ∨ (s.word slot .high).yield = none → ends s reads .fault) ∧
      ∀ low high : Value,
        (policy ≠ .none → (s.word slot .low).yield = some low ∧ (s.word slot .high).yield = some high) →
        (∀ m, mask = some m → (s.word slot .live).yield = none → ends s reads .poisoned) ∧
        ∀ x : Value,
          (mask = none → x = sent) →
          (∀ m, mask = some m → ∃ w, (s.word slot .live).yield = some w ∧ x = mergeValue m sent w) →
          match checkLimits policy low high x with
          | .outside => ends s reads .range
          | .written y => ends (s.writeWord slot .live y) reads .ok
          | .clamped y => ends (s.writeWord slot .live y) reads .clamped
    ((s.word slot .desc).yield = none → ends s [.desc] .fault) ∧
    ∀ (v : Value) (d : Descriptor), (s.word slot .desc).yield = some v → decodeDesc v = some d →
      match d.kind with
      | .unused => ends s [.desc] .vacant
      | .setpoint _ => ends s [.desc] .denied
      | .reading => if d.writers.getLsbD n.val = false then ends s [.desc] .denied else writes d.policy
      | .constant => if (s.port n).supervisor = false then ends s [.desc] .denied else writes .none

/-- What the load engine does to pool, lists and groups (R69, R72, R73, R79, R81, R82): a point is marked exactly when an entry
on a group's list names it; a new stage, a restage, a discard and the removal of one stage. -/
def Obligations.StagePoolMoves : Prop :=
  (∀ (s : State) (p : Nat),
    (s.marked p = true ↔ ∃ g, ∃ e ∈ (s.group g).list, e.point = p) ∧
    (s.markOf p = none ↔ ∀ g, ∀ e ∈ (s.group g).list, e.point ≠ p) ∧
    (∀ g e, s.markOf p = some (g, e) → e ∈ (s.group g).list ∧ e.point = p) ∧
    (LoadSound s → ∀ g, ∀ e ∈ (s.group g).list, e.point = p → s.markOf p = some (g, e))) ∧
  (∀ (s : State) (n : Port) (p : Nat) (g : GroupId) (e : Nat) (rest : List Nat), s.freeList = e :: rest →
    let t := s.newStage n p g
    t.freeList = rest ∧
    t.group g = { s.group g with
      list := (s.group g).list ++ [{ entry := e, point := p, stager := n }]
      state := if (s.group g).state = .empty then .staging else (s.group g).state } ∧
    (∀ h, h ≠ g → t.group h = s.group h) ∧
    (∀ m, t.port m =
      if rest.length + 1 = s.dev.poolLow.toNat then
        { s.port m with sticky := (s.port m).sticky ||| EventKind.poolLow.bit }
      else s.port m) ∧
    t = { s with freeList := rest, groups := t.groups, ports := t.ports }) ∧
  (∀ (s : State) (n : Port) (p : Nat) (g : GroupId) (e : StageEntry), s.markOf p = some (g, e) →
    s.restage n p = s.setGroup g { s.group g with
      list := (s.group g).list.map (fun x => if x.point = p then { x with stager := n } else x) }) ∧
  (∀ (s : State) (g : GroupId),
    s.discard g = { s with
      freeList := s.freeList ++ (s.group g).list.map StageEntry.entry
      loadQueue := s.loadQueue.filter (fun q => q != g) }.setGroup g { s.group g with state := .empty, list := [] }) ∧
  ∀ (s : State) (g : GroupId) (e : StageEntry),
    let kept := (s.group g).list.filter (fun x => x.point != e.point)
    s.removeStage g e =
      if kept = [] then
        { s with freeList := s.freeList ++ [e.entry], loadQueue := s.loadQueue.filter (fun q => q != g) }.setGroup g
          { s.group g with state := .empty, list := [] }
      else { s with freeList := s.freeList ++ [e.entry] }.setGroup g { s.group g with list := kept }

/-- DESC_READ_COMPLETION and MAP_READ_COMPLETION (R48, R65): the record with the stage mark, or the entry, FAULT where a word
has no value. -/
def Obligations.DescAndMapReadCompletions : Prop :=
  ∀ (s : State) (b : BankId) (n : Port) (slot : Nat) (tag : Byte), (s.port n).ce = .waiting (.single tag) →
    (s.inFlight b = some { who := .ce n, slot := slot, act := .descRead, dropped := false } →
      let ends := fun (st : FrameStatus) (body : List Byte) =>
        exec (.descReadCompletion b) s = .next
          (((s.endCompletion s b (.ce n) slot [.desc, .low, .high]).respond n tag st body).serve n)
      (∀ d l h, (s.word slot .desc).yield = some d → (s.word slot .low).yield = some l → (s.word slot .high).yield = some h →
        ends .ok (valueBytes d ++ valueBytes l ++ valueBytes h ++
          [match s.markOf slot with
            | none => 0
            | some x => BitVec.ofNat 8 (128 + x.2.stager.val)])) ∧
      ((s.word slot .desc).yield = none ∨ (s.word slot .low).yield = none ∨ (s.word slot .high).yield = none →
        ends .fault [])) ∧
    (s.inFlight b = some { who := .ce n, slot := slot, act := .mapRead, dropped := false } →
      let ends := fun (st : FrameStatus) (body : List Byte) =>
        exec (.mapReadCompletion b) s = .next
          (((s.endCompletion s b (.ce n) slot [.live]).respond n tag st body).serve n)
      (∀ v, (s.word slot .live).yield = some v → ends .ok (valueBytes v)) ∧
      ((s.word slot .live).yield = none → ends .fault []))

/-- DESC_WRITE_COMPLETION and MAP_WRITE_COMPLETION (R46, R60): BUSY on a marked point whose group is LOADING, else the stage
removed and the record written, each word CLEAN; the map word CLEAN with the new entry, and the target's cached entry of the
page removed. -/
def Obligations.DescAndMapWriteCompletions : Prop :=
  ∀ (s : State) (b : BankId) (n : Port) (slot : Nat) (tag : Byte), (s.port n).ce = .waiting (.single tag) →
    (∀ desc low high : Value,
      s.inFlight b = some { who := .ce n, slot := slot, act := .descWrite desc low high, dropped := false } →
      let record := fun u : State => ((u.writeWord slot .desc desc).writeWord slot .low low).writeWord slot .high high
      let ends := fun (t : State) (st : FrameStatus) =>
        exec (.descWriteCompletion b) s = .next (((t.grantNext b).respond n tag st []).serve n)
      (s.markOf slot = none → ends (record s) .ok) ∧
      ∀ (g : GroupId) (e : StageEntry), s.markOf slot = some (g, e) →
        if (s.group g).state = .loading then ends s .busy else ends (record (s.removeStage g e)) .ok) ∧
    ∀ (target : Port) (page : Nat) (entry : Value),
      s.inFlight b = some { who := .ce n, slot := slot, act := .mapWrite target page entry, dropped := false } →
      let t := s.writeWord slot .live entry
      exec (.mapWriteCompletion b) s = .next
        ((((t.setPort target { t.port target with
            cache := (t.port target).cache.filter (fun e => e.logical != page) }).grantNext b).respond n tag .ok
              []).serve n)

/-- MAP_FILL_COMPLETION (R55 to R57): MAPFAULT, UNMAPPED, or the entry inserted as most recently used below the view size, the
access asked for by its rights; CORRECTED where the map word was CORRECTABLE. A fill in flight over which a view size at or below
its page was written carries `inserts` false (SettingWriteEffects; the mark is the model's bookkeeping, log 14) and inserts
nothing (R56, R63). -/
def Obligations.MapFillCompletionOutcomes : Prop :=
  ∀ (s : State) (b : BankId) (n : Port) (slot l page : Nat) (inserts : Bool) (r : PointRun) (a : PointAccess)
    (rest : List PointAccess),
    s.inFlight b = some { who := .ce n, slot := slot, act := .mapFill l inserts, dropped := false } →
    (s.port n).ce = .waiting (.fill r page) → r.todo = a :: rest →
    let t := s.endCompletion s b (.ce n) slot [.live]
    let r1 := { r with corrected := r.corrected || (s.word slot .live).isCorrectable }
    let refused := fun (u : State) (st : PointStatus) =>
      exec (.mapFillCompletion b) s = .next ((u.goOn n (r1.settle
        { status := st, corrected := r1.corrected, fromStaged := false, value := 0xFFFFFFFF, group := 0,
          cycle := 0xFFFF })).serve n)
    ((s.word slot .live).yield = none → refused t .mapFault) ∧
    ∀ v : Value, (s.word slot .live).yield = some v →
      (v.getLsbD 31 = false → refused t .unmapped) ∧
      (v.getLsbD 31 = true →
        let e : CacheEntry := { logical := l, page := v.extractLsb' 0 8, rights := v.extractLsb' 8 3 }
        let u := if inserts = true ∧ l < (s.port n).cfg.viewSize.toNat then
            t.setPort n { t.port n with cache := e :: ((t.port n).cache.filter (fun x => x.logical != l)).take 7 }
          else t
        let target := 16 * e.page.toNat + r.point.toNat % 16
        let right := match a with
          | .read _ => 0
          | .stage _ _ => 1
          | .post _ _ => 2
        if e.rights.getLsbD right then
          exec (.mapFillCompletion b) s = .next
            ((u.setEngine n (.waiting (.access r1 target))).place
              { who := .ce n, slot := target, dropped := false,
                act := match a with
                  | .read prefer => .read prefer
                  | .stage v mask => .stage v mask
                  | .post v mask => .post v mask })
        else refused u .denied)

/-- TRANSFER_COMPLETION while entries remain (R80, R99): LIVE takes STAGED's value or is left, the finding of source LOAD goes
to the log, the head entry returns to the free list's tail, a count rises, and the next entry's TRANSFER arrives after the grant
decision. -/
def Obligations.TransferCompletionGoesOn : Prop :=
  ∀ (s : State) (b : BankId) (slot : Nat) (dropped : Bool) (g : GroupId) (e e' : StageEntry) (more : List StageEntry),
    s.inFlight b = some { who := .load, slot := slot, act := .transfer, dropped := dropped } →
    s.engine = some g → (s.group g).list = e :: e' :: more → Store.wf s.store = true →
    ∃ t, exec (.transferCompletion b) s = .next t ∧
      t.freeList = s.freeList ++ [e.entry] ∧ t.group g = { s.group g with list := e' :: more } ∧
      (∀ h, h ≠ g → t.group h = s.group h) ∧ t.engine = some g ∧ t.loadQueue = s.loadQueue ∧
      (∀ v, (s.word slot .staged).yield = some v →
        t.word slot .live = .clean v ∧ t.load = { s.load with transferred := s.load.transferred + 1 }) ∧
      ((s.word slot .staged).yield = none →
        t.word slot .live = s.word slot .live ∧
        t.load = { s.load with
          skipped := s.load.skipped + 1
          firstSkipped := some (s.load.firstSkipped.getD slot) }) ∧
      (∀ (i : Nat) (w : WordName), (i ≠ slot ∨ (w ≠ .live ∧ w ≠ .staged)) → t.word i w = s.word i w) ∧
      t.word slot .staged =
        (if s.dev.repair = .onAccess then (s.word slot .staged).repaired else s.word slot .staged) ∧
      (let finding : LogEntry := { slot := slot, word := .staged, source := .load }
       let ecc := match s.word slot .staged with
         | .clean _ => 0
         | .correctable _ => EventKind.eccCorrected.bit
         | .uncorrectable => EventKind.eccUncorrectable.bit
       t.log = (match s.word slot .staged with
         | .clean _ => s.log
         | .correctable _ => { s.log with corrected := some finding, updated := true }
         | .uncorrectable =>
           if s.log.uncorrectable = none then { s.log with uncorrectable := some finding, updated := true } else s.log) ∧
       ∀ n, t.port n = { s.port n with sticky := (s.port n).sticky ||| ecc }) ∧
      (let next := (s.grantNext b).place { who := .load, slot := e'.point, act := .transfer, dropped := false }
       t.banks = next.banks ∧ t.heldBack = next.heldBack) ∧
      t = { s with
        store := t.store, freeList := t.freeList, groups := t.groups, load := t.load, log := t.log, ports := t.ports,
        banks := t.banks, heldBack := t.heldBack }

/-- TRANSFER_COMPLETION of the last entry (R99, R100, R103): the words as for any transfer, the finding of source LOAD, the
record of the load, the watchers told, the holds on the group ended, and the next load started or the engine IDLE. After the
grant decision the READs of the ended holds and the first TRANSFER of the next load arrive, in an order of which R20 says that
either may be first (a free value, log 7). -/
def Obligations.LastTransferEndsLoad : Prop :=
  ∀ (s : State) (b : BankId) (slot : Nat) (dropped : Bool) (g : GroupId) (e : StageEntry),
    s.inFlight b = some { who := .load, slot := slot, act := .transfer, dropped := dropped } →
    s.engine = some g → (s.group g).list = [e] → g ∉ s.loadQueue → Store.wf s.store = true →
    let skip := (s.word slot .staged).yield.isNone
    let transferred := s.load.transferred + (if skip then 0 else 1)
    let skipped := s.load.skipped + (if skip then 1 else 0)
    let firstSkipped := if skip then some (s.load.firstSkipped.getD slot) else s.load.firstSkipped
    let partialLoad := decide (skipped ≠ 0)
    let finding : LogEntry := { slot := slot, word := .staged, source := .load }
    let ecc := match s.word slot .staged with
      | .clean _ => 0
      | .correctable _ => EventKind.eccCorrected.bit
      | .uncorrectable => EventKind.eccUncorrectable.bit
    let reads := (List.finRange 4).filterMap (fun n : Port =>
      match (s.port n).ce with
      | .holding h =>
        if h.group = g then
          some ({ who := .ce n, slot := h.slot, dropped := false,
                  act := match h.run.todo with
                    | .read prefer :: _ => .read prefer
                    | _ => .read false } : BankOp)
        else none
      | _ => none)
    let first := match s.loadQueue with
      | h :: _ => ((s.group h).list.take 1).map (fun x =>
          ({ who := .load, slot := x.point, act := .transfer, dropped := false } : BankOp))
      | [] => []
    ∃ t, exec (.transferCompletion b) s = .next t ∧
      (∀ v, (s.word slot .staged).yield = some v → t.word slot .live = .clean v) ∧
      ((s.word slot .staged).yield = none → t.word slot .live = s.word slot .live) ∧
      t.word slot .staged =
        (if s.dev.repair = .onAccess then (s.word slot .staged).repaired else s.word slot .staged) ∧
      (∀ (i : Nat) (w : WordName), (i ≠ slot ∨ (w ≠ .live ∧ w ≠ .staged)) → t.word i w = s.word i w) ∧
      t.log = (match s.word slot .staged with
        | .clean _ => s.log
        | .correctable _ => { s.log with corrected := some finding, updated := true }
        | .uncorrectable =>
          if s.log.uncorrectable = none then { s.log with uncorrectable := some finding, updated := true } else s.log) ∧
      t.freeList = s.freeList ++ [e.entry] ∧
      t.group g = { s.group g with
        state := .empty, list := []
        lastLoad := some
          { cycle := s.load.cycle, partialLoad := partialLoad, transferred := transferred, skipped := skipped,
            firstSkipped := firstSkipped } } ∧
      t.engine = s.loadQueue.head? ∧ t.loadQueue = s.loadQueue.tail ∧
      (∀ h rest, s.loadQueue = h :: rest →
        t.group h = { s.group h with state := .loading } ∧
        t.load = { cycle := s.cycleNumber, transferred := 0, skipped := 0, firstSkipped := none }) ∧
      (s.loadQueue = [] →
        t.load = { cycle := s.load.cycle, transferred := transferred, skipped := skipped, firstSkipped := firstSkipped }) ∧
      (∀ h, h ≠ g → s.loadQueue.head? ≠ some h → t.group h = s.group h) ∧
      (∀ n : Port,
        let watches := (s.port n).cfg.watch.getLsbD (g.val + 1)
        t.port n = { s.port n with
          loaded := if watches then (s.port n).loaded ||| BitVec.twoPow 64 (g.val + 1) else (s.port n).loaded
          sticky := (s.port n).sticky ||| ecc ||| (if watches && partialLoad then EventKind.loadPartial.bit else 0)
          ce := match (s.port n).ce with
            | .holding h => if h.group = g then .waiting (.access h.run h.slot) else .holding h
            | x => x }) ∧
      (∃ ops : List BankOp, ops.Perm (reads ++ first) ∧
        t.banks = (ops.foldl State.place (s.grantNext b)).banks ∧
        t.heldBack = (ops.foldl State.place (s.grantNext b)).heldBack) ∧
      t = { s with
        store := t.store, freeList := t.freeList, groups := t.groups, engine := t.engine, loadQueue := t.loadQueue,
        load := t.load, log := t.log, ports := t.ports, banks := t.banks, heldBack := t.heldBack, arrivals := t.arrivals }

/-- SCRUB_COMPLETION and FILL_COMPLETION (R10, R13, R14, R22, R111). After row 1023 the bank leaves INIT by a grant decision. -/
def Obligations.ScrubAndFillCompletions : Prop :=
  (∀ (s : State) (b : BankId) (slot : Nat) (dropped : Bool),
    s.inFlight b = some { who := .scrub, slot := slot, act := .scrub, dropped := dropped } → Store.wf s.store = true →
    let words := [WordName.desc, .low, .high, .live, .staged]
    let found := fun bad : Bool => words.any (fun w =>
      match s.word slot w with
      | .clean _ => false
      | .correctable _ => !bad
      | .uncorrectable => bad)
    ∃ t, exec (.scrubCompletion b) s = .next t ∧
      (∀ (i : Nat) (w : WordName), t.word i w =
        if i = slot then
          (match s.word i w with
            | .correctable v => .clean v
            | x => x)
        else s.word i w) ∧
      t.patrol = (if slot < 4095 then slot + 1 else 0) ∧
      t.log = words.foldl (fun l w =>
        let entry : LogEntry := { slot := slot, word := w, source := .scrub }
        match s.word slot w with
        | .clean _ => l
        | .correctable _ => { l with corrected := some entry, updated := true }
        | .uncorrectable =>
          if l.uncorrectable = none then { l with uncorrectable := some entry, updated := true } else l) s.log ∧
      (∀ n, t.port n = { s.port n with
        sticky := (s.port n).sticky ||| (if found false then EventKind.eccCorrected.bit else 0)
          ||| (if found true then EventKind.eccUncorrectable.bit else 0)
          ||| (if slot < 4095 then 0 else EventKind.scrubPass.bit) }) ∧
      t.banks = (s.grantNext b).banks ∧
      t = { s with store := t.store, patrol := t.patrol, log := t.log, ports := t.ports, banks := t.banks }) ∧
  ∀ (s : State) (b : BankId), s.resetLow = false → (s.bank b).phase = .init → Store.wf s.store = true →
    let row := (s.bank b).fillRow
    ∃ t, exec (.fillCompletion b) s = .next t ∧
      (∀ (i : Nat) (w : WordName), t.word i w = if i = 4 * row + b.val then .clean 0 else s.word i w) ∧
      (∀ c, c ≠ b → t.bank c = s.bank c) ∧
      t.bank b = (if row < 1023 then { s.bank b with fillRow := row + 1 }
        else Bank.grantNext s.dev.guarantee.toNat { s.bank b with fillRow := row + 1 }) ∧
      (1023 ≤ row → (t.bank b).phase ≠ .init ∧ ((s.bank b).waiting = [] → (t.bank b).phase = .idle)) ∧
      (row < 1023 ∨ (∃ c, c ≠ b ∧ (s.bank c).phase = .init) →
        t.ready = false ∧ t.scrubTimer = s.scrubTimer ∧ t.patrol = s.patrol) ∧
      (1023 ≤ row → (∀ c, c ≠ b → (s.bank c).phase ≠ .init) → t.ready = true ∧ t.patrol = 0 ∧
        t.scrubTimer = (if s.dev.scrubInterval = 0 then none else some s.dev.scrubInterval.toNat)) ∧
      t = { s with store := t.store, banks := t.banks, patrol := t.patrol, scrubTimer := t.scrubTimer }

/-- An operation whose engine has been reset completes with all its effects and its result is dropped (R17); a requester whose
operation is outstanding places no other request (R19). That CEn holds a request back until then and places it after the grant
decision of that completion is read from R19, R22 and R139 (DEDUCED, log 20). -/
def Obligations.DroppedOperationKeepsItsEffects : Prop :=
  (∀ (s : State) (op : BankOp), (∃ b, ∃ x ∈ (s.bank b).ops, x.who = op.who) →
    s.place op = { s with heldBack := s.heldBack.filter (fun x => x.who != op.who) ++ [op] }) ∧
  (∀ (s : State) (r : Requester),
    ((∀ op ∈ s.heldBack, op.who ≠ r) → s.release r = s) ∧
    ∀ op, s.heldBack.filter (fun x => x.who == r) = [op] →
      s.release r = { s with heldBack := s.heldBack.filter (fun x => x.who != r) }.place op) ∧
  ∀ (s : State) (b : BankId) (n : Port) (slot : Nat) (act : Act),
    s.inFlight b = some { who := .ce n, slot := slot, act := act, dropped := true } →
    (∀ v, (s.word slot .desc).yield = some v → ∃ d, decodeDesc v = some d) →
    match act with
    | .read prefer =>
      exec (.readCompletion b) s =
        .next ((s.endCompletion s b (.ce n) slot (s.planRead slot prefer).reads).release (.ce n))
    | .stage v m =>
      exec (.stageCompletion b) s =
        .next ((s.endCompletion (s.stageEffect n slot v m).state b (.ce n) slot (s.stageEffect n slot v m).reads).release
          (.ce n))
    | .post v m =>
      exec (.postCompletion b) s =
        .next ((s.endCompletion (s.postEffect n slot v m).state b (.ce n) slot (s.postEffect n slot v m).reads).release
          (.ce n))
    | .descRead =>
      exec (.descReadCompletion b) s = .next ((s.endCompletion s b (.ce n) slot [.desc, .low, .high]).release (.ce n))
    | .descWrite d l h =>
      exec (.descWriteCompletion b) s = .next (((s.descWriteEffect slot d l h).2.grantNext b).release (.ce n))
    | .mapFill _ _ =>
      exec (.mapFillCompletion b) s = .next ((s.endCompletion s b (.ce n) slot [.live]).release (.ce n))
    | .mapRead =>
      exec (.mapReadCompletion b) s = .next ((s.endCompletion s b (.ce n) slot [.live]).release (.ce n))
    | .mapWrite target page e =>
      exec (.mapWriteCompletion b) s =
        .next ((((s.writeWord slot .live e).updPort target (PortState.invalidate page)).grantNext b).release (.ce n))
    | .transfer => True
    | .scrub => True

/-! ## Arbitration -/

/-- The grant decision (R22, R23): which waiting requester is granted, and what each grant changes; a request that arrives at
an IDLE bank is granted at once, at any other it waits (R20); a requester with no request outstanding places its request at the
arbiter of bank slot mod 4, and nothing else changes (R1, R7, R19). -/
def Obligations.GrantDecision : Prop :=
  (∀ (k : Nat) (b : Bank),
    let after := fun n : Port => (n.val + 3 - b.lastGranted.val) % 4
    let granted := fun (r : Requester) (last : Port) (count : Nat) =>
      ∀ op, b.waiting.find? (fun x => x.who == r) = some op →
        b.grantNext k = { b with
          phase := .busy op, waiting := b.waiting.erase op, lastGranted := last, waitCount := count }
    (b.waiting = [] → b.grantNext k = { b with phase := .idle }) ∧
    (b.waits .load = true → granted .load b.lastGranted b.waitCount) ∧
    (b.waits .load = false → b.waits .scrub = true → k ≤ b.waitCount → granted .scrub b.lastGranted 0) ∧
    (b.waits .load = false → (b.waits .scrub = true → b.waitCount < k) →
      (∀ n : Port, b.waits (.ce n) = true → (∀ m : Port, b.waits (.ce m) = true → after n ≤ after m) →
        granted (.ce n) n (if b.waits .scrub then b.waitCount + 1 else b.waitCount)) ∧
      (b.waits .scrub = true → (∀ n : Port, b.waits (.ce n) = false) → granted .scrub b.lastGranted 0))) ∧
  (∀ (s : State) (op : BankOp) (c : BankId), (∀ b, ∀ x ∈ (s.bank b).ops, x.who ≠ op.who) → c.val = op.slot % 4 →
    s.place op = s.setBank c ((s.bank c).arrive op)) ∧
  ∀ (b : Bank) (op : BankOp),
    (b.phase ≠ .idle → b.arrive op = { b with waiting := b.waiting ++ [op] }) ∧
    (b.phase = .idle → b.waiting = [] →
      b.arrive op =
        match op.who with
        | .load => { b with phase := .busy op }
        | .scrub => { b with phase := .busy op, waitCount := 0 }
        | .ce n => { b with phase := .busy op, lastGranted := n })

/-! ## Headline statements -/

/-- The layouts of 13.3 lose nothing: the frame of every request whose fields are in their ranges decodes to that request. -/
def Obligations.RequestLayoutsRoundTrip : Prop :=
  ∀ r : Request, r.wf = true → ∃ decode, requestDecoder r.op = some decode ∧ decode r.params = some r

/-- Every step keeps the store's list canonical and every descriptor record one that the checks of R45 accept (R31). -/
def Obligations.DescriptorsStayAdmitted : Prop :=
  ∀ s t : State, DescriptorsAdmitted s → step s = .next t → DescriptorsAdmitted t

/-- Every step keeps the pool's account, the group table, the load queue and the holds sound (R68, R84, R85, R97, R98,
R102). -/
def Obligations.LoadTablesStaySound : Prop := ∀ s t : State, LoadSound s → step s = .next t → LoadSound t

/-- Every step keeps the arbiters and their requesters sound (R1, R13, R19, R21, R22, R108). -/
def Obligations.ArbitersStaySound : Prop := ∀ s t : State, ArbiterSound s → step s = .next t → ArbiterSound t

/-- Every step keeps caches, settings and links within their bounds (R53, R121, R124, R129, R159, R161, 11.2). -/
def Obligations.PortsStayInBounds : Prop :=
  ∀ s t : State, step s = .next t →
    (CacheBounded s → CacheBounded t) ∧ (SettingsInRange s → SettingsInRange t) ∧ (PortsBounded s → PortsBounded t)

/-- The part right after reset meets every invariant. -/
def Obligations.InvariantsHoldAtReset : Prop :=
  DescriptorsAdmitted State.reset ∧ LoadSound State.reset ∧ ArbiterSound State.reset ∧ CacheBounded State.reset ∧
    SettingsInRange State.reset ∧ PortsBounded State.reset

/-- A well-formed command is never refused, and stops on nothing but a descriptor whose code the layout does not define
(log 9), which no admitted store holds; a request that no frame holds is refused (log 10). -/
def Obligations.CommandsComplete : Prop :=
  (∀ (c : Instr) (s : State), c.wf = true → DescriptorsAdmitted s → ∃ t, exec c s = .next t) ∧
  (∀ (c : Instr) (s : State) (x : Fault), exec c s = .fault x →
    ∃ slot v, x = .undefinedDescriptor slot ∧ (s.word slot .desc).yield = some v ∧ decodeDesc v = none) ∧
  ∀ (c : Instr) (s : State) (x : Refusal), exec c s = .refused x →
    x = .frameTooLong ∧ ∃ n f, frameOf c = some (n, f) ∧ 80 < f.length

/-- While a point is a SETPOINT, no command but a transfer of it, the fill of its slot or a disturbance changes what its LIVE
word yields (R18); a map write names a map slot. -/
def Obligations.SetpointLiveIsTransferredOnly : Prop :=
  ∀ (c : Instr) (s t : State) (slot : Nat) (v : Value) (d : Descriptor) (g : GroupId), Store.wf s.store = true →
    (s.word slot .desc).yield = some v → decodeDesc v = some d → d.kind = .setpoint g →
    (∀ i w, c ≠ .disturbance i w) →
    (∀ b op, s.inFlight b = some op → op.slot = slot → op.act ≠ .transfer ∧ ∀ m l e, op.act ≠ .mapWrite m l e) →
    (∀ b, (s.bank b).phase = .init → slot ≠ 4 * (s.bank b).fillRow + b.val) →
    exec c s = .next t → (t.word slot .live).yield = (s.word slot .live).yield

/-- A request from a member port changes no descriptor, map entry, group mode or arm set, and no setting but its own port's
own-port items (R169). -/
def Obligations.MemberRequestsChangeNoConfiguration : Prop :=
  ∀ (c : Instr) (n : Port) (f : List Byte) (s t : State), frameOf c = some (n, f) → (s.port n).supervisor = false →
    exec c s = .next t →
    t.store = s.store ∧ (∀ g, (t.group g).mode = (s.group g).mode ∧ (t.group g).armSet = (s.group g).armSet) ∧
    (∀ m i, m ≠ n ∨ i.kind ≠ .ownPort → t.itemBytes m i = s.itemBytes m i) ∧
    (∀ b, ∀ op ∈ (t.bank b).ops, op ∈ (s.bank b).ops ∨
      ((∀ d l h, op.act ≠ .descWrite d l h) ∧ ∀ m l e, op.act ≠ .mapWrite m l e)) ∧
    ∀ op ∈ t.heldBack, op ∈ s.heldBack ∨
      ((∀ d l h, op.act ≠ .descWrite d l h) ∧ ∀ m l e, op.act ≠ .mapWrite m l e)

end ObligationStatements
end

