-- ==== Sys2Proof/Laws/State.lean ====
section
/-! SUPPORT. What each update of State leaves as it was, field by field, and what it leaves where it writes. -/

namespace Sys2Proof.Machine.State

/-! ### setPort changes `ports` alone -/

@[simp] theorem setPort_store (s : State) (n : Port) (p : PortState) : (s.setPort n p).store = s.store := rfl
@[simp] theorem setPort_word (s : State) (n : Port) (p : PortState) (i : Nat) (x : WordName) : (s.setPort n p).word i x = s.word i x := rfl
@[simp] theorem setPort_banks (s : State) (n : Port) (p : PortState) : (s.setPort n p).banks = s.banks := rfl
@[simp] theorem setPort_bank (s : State) (n : Port) (p : PortState) (b : BankId) : (s.setPort n p).bank b = s.bank b := rfl
@[simp] theorem setPort_freeList (s : State) (n : Port) (p : PortState) : (s.setPort n p).freeList = s.freeList := rfl
@[simp] theorem setPort_heldBack (s : State) (n : Port) (p : PortState) : (s.setPort n p).heldBack = s.heldBack := rfl
@[simp] theorem setPort_groups (s : State) (n : Port) (p : PortState) : (s.setPort n p).groups = s.groups := rfl
@[simp] theorem setPort_group (s : State) (n : Port) (p : PortState) (g : GroupId) : (s.setPort n p).group g = s.group g := rfl
@[simp] theorem setPort_loadQueue (s : State) (n : Port) (p : PortState) : (s.setPort n p).loadQueue = s.loadQueue := rfl
@[simp] theorem setPort_engine (s : State) (n : Port) (p : PortState) : (s.setPort n p).engine = s.engine := rfl
@[simp] theorem setPort_load (s : State) (n : Port) (p : PortState) : (s.setPort n p).load = s.load := rfl
@[simp] theorem setPort_cycleNumber (s : State) (n : Port) (p : PortState) : (s.setPort n p).cycleNumber = s.cycleNumber := rfl
@[simp] theorem setPort_cycleTimer (s : State) (n : Port) (p : PortState) : (s.setPort n p).cycleTimer = s.cycleTimer := rfl
@[simp] theorem setPort_patrol (s : State) (n : Port) (p : PortState) : (s.setPort n p).patrol = s.patrol := rfl
@[simp] theorem setPort_scrubTimer (s : State) (n : Port) (p : PortState) : (s.setPort n p).scrubTimer = s.scrubTimer := rfl
@[simp] theorem setPort_log (s : State) (n : Port) (p : PortState) : (s.setPort n p).log = s.log := rfl
@[simp] theorem setPort_dev (s : State) (n : Port) (p : PortState) : (s.setPort n p).dev = s.dev := rfl
@[simp] theorem setPort_startCause (s : State) (n : Port) (p : PortState) : (s.setPort n p).startCause = s.startCause := rfl
@[simp] theorem setPort_torn (s : State) (n : Port) (p : PortState) : (s.setPort n p).torn = s.torn := rfl
@[simp] theorem setPort_resetLow (s : State) (n : Port) (p : PortState) : (s.setPort n p).resetLow = s.resetLow := rfl
@[simp] theorem setPort_arrivals (s : State) (n : Port) (p : PortState) : (s.setPort n p).arrivals = s.arrivals := rfl
@[simp] theorem setPort_pending (s : State) (n : Port) (p : PortState) : (s.setPort n p).pending = s.pending := rfl

/-! ### updPort changes `ports` alone -/

@[simp] theorem updPort_store (s : State) (n : Port) (f : PortState → PortState) : (s.updPort n f).store = s.store := rfl
@[simp] theorem updPort_word (s : State) (n : Port) (f : PortState → PortState) (i : Nat) (x : WordName) : (s.updPort n f).word i x = s.word i x := rfl
@[simp] theorem updPort_banks (s : State) (n : Port) (f : PortState → PortState) : (s.updPort n f).banks = s.banks := rfl
@[simp] theorem updPort_bank (s : State) (n : Port) (f : PortState → PortState) (b : BankId) : (s.updPort n f).bank b = s.bank b := rfl
@[simp] theorem updPort_freeList (s : State) (n : Port) (f : PortState → PortState) : (s.updPort n f).freeList = s.freeList := rfl
@[simp] theorem updPort_heldBack (s : State) (n : Port) (f : PortState → PortState) : (s.updPort n f).heldBack = s.heldBack := rfl
@[simp] theorem updPort_groups (s : State) (n : Port) (f : PortState → PortState) : (s.updPort n f).groups = s.groups := rfl
@[simp] theorem updPort_group (s : State) (n : Port) (f : PortState → PortState) (g : GroupId) : (s.updPort n f).group g = s.group g := rfl
@[simp] theorem updPort_loadQueue (s : State) (n : Port) (f : PortState → PortState) : (s.updPort n f).loadQueue = s.loadQueue := rfl
@[simp] theorem updPort_engine (s : State) (n : Port) (f : PortState → PortState) : (s.updPort n f).engine = s.engine := rfl
@[simp] theorem updPort_load (s : State) (n : Port) (f : PortState → PortState) : (s.updPort n f).load = s.load := rfl
@[simp] theorem updPort_cycleNumber (s : State) (n : Port) (f : PortState → PortState) : (s.updPort n f).cycleNumber = s.cycleNumber := rfl
@[simp] theorem updPort_cycleTimer (s : State) (n : Port) (f : PortState → PortState) : (s.updPort n f).cycleTimer = s.cycleTimer := rfl
@[simp] theorem updPort_patrol (s : State) (n : Port) (f : PortState → PortState) : (s.updPort n f).patrol = s.patrol := rfl
@[simp] theorem updPort_scrubTimer (s : State) (n : Port) (f : PortState → PortState) : (s.updPort n f).scrubTimer = s.scrubTimer := rfl
@[simp] theorem updPort_log (s : State) (n : Port) (f : PortState → PortState) : (s.updPort n f).log = s.log := rfl
@[simp] theorem updPort_dev (s : State) (n : Port) (f : PortState → PortState) : (s.updPort n f).dev = s.dev := rfl
@[simp] theorem updPort_startCause (s : State) (n : Port) (f : PortState → PortState) : (s.updPort n f).startCause = s.startCause := rfl
@[simp] theorem updPort_torn (s : State) (n : Port) (f : PortState → PortState) : (s.updPort n f).torn = s.torn := rfl
@[simp] theorem updPort_resetLow (s : State) (n : Port) (f : PortState → PortState) : (s.updPort n f).resetLow = s.resetLow := rfl
@[simp] theorem updPort_arrivals (s : State) (n : Port) (f : PortState → PortState) : (s.updPort n f).arrivals = s.arrivals := rfl
@[simp] theorem updPort_pending (s : State) (n : Port) (f : PortState → PortState) : (s.updPort n f).pending = s.pending := rfl

/-! ### updAllPorts changes `ports` alone -/

@[simp] theorem updAllPorts_store (s : State) (f : PortState → PortState) : (s.updAllPorts f).store = s.store := rfl
@[simp] theorem updAllPorts_word (s : State) (f : PortState → PortState) (i : Nat) (x : WordName) : (s.updAllPorts f).word i x = s.word i x := rfl
@[simp] theorem updAllPorts_banks (s : State) (f : PortState → PortState) : (s.updAllPorts f).banks = s.banks := rfl
@[simp] theorem updAllPorts_bank (s : State) (f : PortState → PortState) (b : BankId) : (s.updAllPorts f).bank b = s.bank b := rfl
@[simp] theorem updAllPorts_freeList (s : State) (f : PortState → PortState) : (s.updAllPorts f).freeList = s.freeList := rfl
@[simp] theorem updAllPorts_heldBack (s : State) (f : PortState → PortState) : (s.updAllPorts f).heldBack = s.heldBack := rfl
@[simp] theorem updAllPorts_groups (s : State) (f : PortState → PortState) : (s.updAllPorts f).groups = s.groups := rfl
@[simp] theorem updAllPorts_group (s : State) (f : PortState → PortState) (g : GroupId) : (s.updAllPorts f).group g = s.group g := rfl
@[simp] theorem updAllPorts_loadQueue (s : State) (f : PortState → PortState) : (s.updAllPorts f).loadQueue = s.loadQueue := rfl
@[simp] theorem updAllPorts_engine (s : State) (f : PortState → PortState) : (s.updAllPorts f).engine = s.engine := rfl
@[simp] theorem updAllPorts_load (s : State) (f : PortState → PortState) : (s.updAllPorts f).load = s.load := rfl
@[simp] theorem updAllPorts_cycleNumber (s : State) (f : PortState → PortState) : (s.updAllPorts f).cycleNumber = s.cycleNumber := rfl
@[simp] theorem updAllPorts_cycleTimer (s : State) (f : PortState → PortState) : (s.updAllPorts f).cycleTimer = s.cycleTimer := rfl
@[simp] theorem updAllPorts_patrol (s : State) (f : PortState → PortState) : (s.updAllPorts f).patrol = s.patrol := rfl
@[simp] theorem updAllPorts_scrubTimer (s : State) (f : PortState → PortState) : (s.updAllPorts f).scrubTimer = s.scrubTimer := rfl
@[simp] theorem updAllPorts_log (s : State) (f : PortState → PortState) : (s.updAllPorts f).log = s.log := rfl
@[simp] theorem updAllPorts_dev (s : State) (f : PortState → PortState) : (s.updAllPorts f).dev = s.dev := rfl
@[simp] theorem updAllPorts_startCause (s : State) (f : PortState → PortState) : (s.updAllPorts f).startCause = s.startCause := rfl
@[simp] theorem updAllPorts_torn (s : State) (f : PortState → PortState) : (s.updAllPorts f).torn = s.torn := rfl
@[simp] theorem updAllPorts_resetLow (s : State) (f : PortState → PortState) : (s.updAllPorts f).resetLow = s.resetLow := rfl
@[simp] theorem updAllPorts_arrivals (s : State) (f : PortState → PortState) : (s.updAllPorts f).arrivals = s.arrivals := rfl
@[simp] theorem updAllPorts_pending (s : State) (f : PortState → PortState) : (s.updAllPorts f).pending = s.pending := rfl

/-! ### setBank changes `banks` alone -/

@[simp] theorem setBank_store (s : State) (k : BankId) (y : Bank) : (s.setBank k y).store = s.store := rfl
@[simp] theorem setBank_word (s : State) (k : BankId) (y : Bank) (i : Nat) (x : WordName) : (s.setBank k y).word i x = s.word i x := rfl
@[simp] theorem setBank_freeList (s : State) (k : BankId) (y : Bank) : (s.setBank k y).freeList = s.freeList := rfl
@[simp] theorem setBank_heldBack (s : State) (k : BankId) (y : Bank) : (s.setBank k y).heldBack = s.heldBack := rfl
@[simp] theorem setBank_groups (s : State) (k : BankId) (y : Bank) : (s.setBank k y).groups = s.groups := rfl
@[simp] theorem setBank_group (s : State) (k : BankId) (y : Bank) (g : GroupId) : (s.setBank k y).group g = s.group g := rfl
@[simp] theorem setBank_loadQueue (s : State) (k : BankId) (y : Bank) : (s.setBank k y).loadQueue = s.loadQueue := rfl
@[simp] theorem setBank_engine (s : State) (k : BankId) (y : Bank) : (s.setBank k y).engine = s.engine := rfl
@[simp] theorem setBank_load (s : State) (k : BankId) (y : Bank) : (s.setBank k y).load = s.load := rfl
@[simp] theorem setBank_cycleNumber (s : State) (k : BankId) (y : Bank) : (s.setBank k y).cycleNumber = s.cycleNumber := rfl
@[simp] theorem setBank_cycleTimer (s : State) (k : BankId) (y : Bank) : (s.setBank k y).cycleTimer = s.cycleTimer := rfl
@[simp] theorem setBank_patrol (s : State) (k : BankId) (y : Bank) : (s.setBank k y).patrol = s.patrol := rfl
@[simp] theorem setBank_scrubTimer (s : State) (k : BankId) (y : Bank) : (s.setBank k y).scrubTimer = s.scrubTimer := rfl
@[simp] theorem setBank_log (s : State) (k : BankId) (y : Bank) : (s.setBank k y).log = s.log := rfl
@[simp] theorem setBank_dev (s : State) (k : BankId) (y : Bank) : (s.setBank k y).dev = s.dev := rfl
@[simp] theorem setBank_startCause (s : State) (k : BankId) (y : Bank) : (s.setBank k y).startCause = s.startCause := rfl
@[simp] theorem setBank_torn (s : State) (k : BankId) (y : Bank) : (s.setBank k y).torn = s.torn := rfl
@[simp] theorem setBank_resetLow (s : State) (k : BankId) (y : Bank) : (s.setBank k y).resetLow = s.resetLow := rfl
@[simp] theorem setBank_ports (s : State) (k : BankId) (y : Bank) : (s.setBank k y).ports = s.ports := rfl
@[simp] theorem setBank_port (s : State) (k : BankId) (y : Bank) (m : Port) : (s.setBank k y).port m = s.port m := rfl
@[simp] theorem setBank_arrivals (s : State) (k : BankId) (y : Bank) : (s.setBank k y).arrivals = s.arrivals := rfl
@[simp] theorem setBank_pending (s : State) (k : BankId) (y : Bank) : (s.setBank k y).pending = s.pending := rfl

/-! ### updBank changes `banks` alone -/

@[simp] theorem updBank_store (s : State) (k : BankId) (f : Bank → Bank) : (s.updBank k f).store = s.store := rfl
@[simp] theorem updBank_word (s : State) (k : BankId) (f : Bank → Bank) (i : Nat) (x : WordName) : (s.updBank k f).word i x = s.word i x := rfl
@[simp] theorem updBank_freeList (s : State) (k : BankId) (f : Bank → Bank) : (s.updBank k f).freeList = s.freeList := rfl
@[simp] theorem updBank_heldBack (s : State) (k : BankId) (f : Bank → Bank) : (s.updBank k f).heldBack = s.heldBack := rfl
@[simp] theorem updBank_groups (s : State) (k : BankId) (f : Bank → Bank) : (s.updBank k f).groups = s.groups := rfl
@[simp] theorem updBank_group (s : State) (k : BankId) (f : Bank → Bank) (g : GroupId) : (s.updBank k f).group g = s.group g := rfl
@[simp] theorem updBank_loadQueue (s : State) (k : BankId) (f : Bank → Bank) : (s.updBank k f).loadQueue = s.loadQueue := rfl
@[simp] theorem updBank_engine (s : State) (k : BankId) (f : Bank → Bank) : (s.updBank k f).engine = s.engine := rfl
@[simp] theorem updBank_load (s : State) (k : BankId) (f : Bank → Bank) : (s.updBank k f).load = s.load := rfl
@[simp] theorem updBank_cycleNumber (s : State) (k : BankId) (f : Bank → Bank) : (s.updBank k f).cycleNumber = s.cycleNumber := rfl
@[simp] theorem updBank_cycleTimer (s : State) (k : BankId) (f : Bank → Bank) : (s.updBank k f).cycleTimer = s.cycleTimer := rfl
@[simp] theorem updBank_patrol (s : State) (k : BankId) (f : Bank → Bank) : (s.updBank k f).patrol = s.patrol := rfl
@[simp] theorem updBank_scrubTimer (s : State) (k : BankId) (f : Bank → Bank) : (s.updBank k f).scrubTimer = s.scrubTimer := rfl
@[simp] theorem updBank_log (s : State) (k : BankId) (f : Bank → Bank) : (s.updBank k f).log = s.log := rfl
@[simp] theorem updBank_dev (s : State) (k : BankId) (f : Bank → Bank) : (s.updBank k f).dev = s.dev := rfl
@[simp] theorem updBank_startCause (s : State) (k : BankId) (f : Bank → Bank) : (s.updBank k f).startCause = s.startCause := rfl
@[simp] theorem updBank_torn (s : State) (k : BankId) (f : Bank → Bank) : (s.updBank k f).torn = s.torn := rfl
@[simp] theorem updBank_resetLow (s : State) (k : BankId) (f : Bank → Bank) : (s.updBank k f).resetLow = s.resetLow := rfl
@[simp] theorem updBank_ports (s : State) (k : BankId) (f : Bank → Bank) : (s.updBank k f).ports = s.ports := rfl
@[simp] theorem updBank_port (s : State) (k : BankId) (f : Bank → Bank) (m : Port) : (s.updBank k f).port m = s.port m := rfl
@[simp] theorem updBank_arrivals (s : State) (k : BankId) (f : Bank → Bank) : (s.updBank k f).arrivals = s.arrivals := rfl
@[simp] theorem updBank_pending (s : State) (k : BankId) (f : Bank → Bank) : (s.updBank k f).pending = s.pending := rfl

/-! ### updAllBanks changes `banks` alone -/

@[simp] theorem updAllBanks_store (s : State) (f : Bank → Bank) : (s.updAllBanks f).store = s.store := rfl
@[simp] theorem updAllBanks_word (s : State) (f : Bank → Bank) (i : Nat) (x : WordName) : (s.updAllBanks f).word i x = s.word i x := rfl
@[simp] theorem updAllBanks_freeList (s : State) (f : Bank → Bank) : (s.updAllBanks f).freeList = s.freeList := rfl
@[simp] theorem updAllBanks_heldBack (s : State) (f : Bank → Bank) : (s.updAllBanks f).heldBack = s.heldBack := rfl
@[simp] theorem updAllBanks_groups (s : State) (f : Bank → Bank) : (s.updAllBanks f).groups = s.groups := rfl
@[simp] theorem updAllBanks_group (s : State) (f : Bank → Bank) (g : GroupId) : (s.updAllBanks f).group g = s.group g := rfl
@[simp] theorem updAllBanks_loadQueue (s : State) (f : Bank → Bank) : (s.updAllBanks f).loadQueue = s.loadQueue := rfl
@[simp] theorem updAllBanks_engine (s : State) (f : Bank → Bank) : (s.updAllBanks f).engine = s.engine := rfl
@[simp] theorem updAllBanks_load (s : State) (f : Bank → Bank) : (s.updAllBanks f).load = s.load := rfl
@[simp] theorem updAllBanks_cycleNumber (s : State) (f : Bank → Bank) : (s.updAllBanks f).cycleNumber = s.cycleNumber := rfl
@[simp] theorem updAllBanks_cycleTimer (s : State) (f : Bank → Bank) : (s.updAllBanks f).cycleTimer = s.cycleTimer := rfl
@[simp] theorem updAllBanks_patrol (s : State) (f : Bank → Bank) : (s.updAllBanks f).patrol = s.patrol := rfl
@[simp] theorem updAllBanks_scrubTimer (s : State) (f : Bank → Bank) : (s.updAllBanks f).scrubTimer = s.scrubTimer := rfl
@[simp] theorem updAllBanks_log (s : State) (f : Bank → Bank) : (s.updAllBanks f).log = s.log := rfl
@[simp] theorem updAllBanks_dev (s : State) (f : Bank → Bank) : (s.updAllBanks f).dev = s.dev := rfl
@[simp] theorem updAllBanks_startCause (s : State) (f : Bank → Bank) : (s.updAllBanks f).startCause = s.startCause := rfl
@[simp] theorem updAllBanks_torn (s : State) (f : Bank → Bank) : (s.updAllBanks f).torn = s.torn := rfl
@[simp] theorem updAllBanks_resetLow (s : State) (f : Bank → Bank) : (s.updAllBanks f).resetLow = s.resetLow := rfl
@[simp] theorem updAllBanks_ports (s : State) (f : Bank → Bank) : (s.updAllBanks f).ports = s.ports := rfl
@[simp] theorem updAllBanks_port (s : State) (f : Bank → Bank) (m : Port) : (s.updAllBanks f).port m = s.port m := rfl
@[simp] theorem updAllBanks_arrivals (s : State) (f : Bank → Bank) : (s.updAllBanks f).arrivals = s.arrivals := rfl
@[simp] theorem updAllBanks_pending (s : State) (f : Bank → Bank) : (s.updAllBanks f).pending = s.pending := rfl

/-! ### setGroup changes `groups` alone -/

@[simp] theorem setGroup_store (s : State) (k : GroupId) (y : GroupRec) : (s.setGroup k y).store = s.store := rfl
@[simp] theorem setGroup_word (s : State) (k : GroupId) (y : GroupRec) (i : Nat) (x : WordName) : (s.setGroup k y).word i x = s.word i x := rfl
@[simp] theorem setGroup_banks (s : State) (k : GroupId) (y : GroupRec) : (s.setGroup k y).banks = s.banks := rfl
@[simp] theorem setGroup_bank (s : State) (k : GroupId) (y : GroupRec) (b : BankId) : (s.setGroup k y).bank b = s.bank b := rfl
@[simp] theorem setGroup_freeList (s : State) (k : GroupId) (y : GroupRec) : (s.setGroup k y).freeList = s.freeList := rfl
@[simp] theorem setGroup_heldBack (s : State) (k : GroupId) (y : GroupRec) : (s.setGroup k y).heldBack = s.heldBack := rfl
@[simp] theorem setGroup_loadQueue (s : State) (k : GroupId) (y : GroupRec) : (s.setGroup k y).loadQueue = s.loadQueue := rfl
@[simp] theorem setGroup_engine (s : State) (k : GroupId) (y : GroupRec) : (s.setGroup k y).engine = s.engine := rfl
@[simp] theorem setGroup_load (s : State) (k : GroupId) (y : GroupRec) : (s.setGroup k y).load = s.load := rfl
@[simp] theorem setGroup_cycleNumber (s : State) (k : GroupId) (y : GroupRec) : (s.setGroup k y).cycleNumber = s.cycleNumber := rfl
@[simp] theorem setGroup_cycleTimer (s : State) (k : GroupId) (y : GroupRec) : (s.setGroup k y).cycleTimer = s.cycleTimer := rfl
@[simp] theorem setGroup_patrol (s : State) (k : GroupId) (y : GroupRec) : (s.setGroup k y).patrol = s.patrol := rfl
@[simp] theorem setGroup_scrubTimer (s : State) (k : GroupId) (y : GroupRec) : (s.setGroup k y).scrubTimer = s.scrubTimer := rfl
@[simp] theorem setGroup_log (s : State) (k : GroupId) (y : GroupRec) : (s.setGroup k y).log = s.log := rfl
@[simp] theorem setGroup_dev (s : State) (k : GroupId) (y : GroupRec) : (s.setGroup k y).dev = s.dev := rfl
@[simp] theorem setGroup_startCause (s : State) (k : GroupId) (y : GroupRec) : (s.setGroup k y).startCause = s.startCause := rfl
@[simp] theorem setGroup_torn (s : State) (k : GroupId) (y : GroupRec) : (s.setGroup k y).torn = s.torn := rfl
@[simp] theorem setGroup_resetLow (s : State) (k : GroupId) (y : GroupRec) : (s.setGroup k y).resetLow = s.resetLow := rfl
@[simp] theorem setGroup_ports (s : State) (k : GroupId) (y : GroupRec) : (s.setGroup k y).ports = s.ports := rfl
@[simp] theorem setGroup_port (s : State) (k : GroupId) (y : GroupRec) (m : Port) : (s.setGroup k y).port m = s.port m := rfl
@[simp] theorem setGroup_arrivals (s : State) (k : GroupId) (y : GroupRec) : (s.setGroup k y).arrivals = s.arrivals := rfl
@[simp] theorem setGroup_pending (s : State) (k : GroupId) (y : GroupRec) : (s.setGroup k y).pending = s.pending := rfl

/-! ### updGroup changes `groups` alone -/

@[simp] theorem updGroup_store (s : State) (k : GroupId) (f : GroupRec → GroupRec) : (s.updGroup k f).store = s.store := rfl
@[simp] theorem updGroup_word (s : State) (k : GroupId) (f : GroupRec → GroupRec) (i : Nat) (x : WordName) : (s.updGroup k f).word i x = s.word i x := rfl
@[simp] theorem updGroup_banks (s : State) (k : GroupId) (f : GroupRec → GroupRec) : (s.updGroup k f).banks = s.banks := rfl
@[simp] theorem updGroup_bank (s : State) (k : GroupId) (f : GroupRec → GroupRec) (b : BankId) : (s.updGroup k f).bank b = s.bank b := rfl
@[simp] theorem updGroup_freeList (s : State) (k : GroupId) (f : GroupRec → GroupRec) : (s.updGroup k f).freeList = s.freeList := rfl
@[simp] theorem updGroup_heldBack (s : State) (k : GroupId) (f : GroupRec → GroupRec) : (s.updGroup k f).heldBack = s.heldBack := rfl
@[simp] theorem updGroup_loadQueue (s : State) (k : GroupId) (f : GroupRec → GroupRec) : (s.updGroup k f).loadQueue = s.loadQueue := rfl
@[simp] theorem updGroup_engine (s : State) (k : GroupId) (f : GroupRec → GroupRec) : (s.updGroup k f).engine = s.engine := rfl
@[simp] theorem updGroup_load (s : State) (k : GroupId) (f : GroupRec → GroupRec) : (s.updGroup k f).load = s.load := rfl
@[simp] theorem updGroup_cycleNumber (s : State) (k : GroupId) (f : GroupRec → GroupRec) : (s.updGroup k f).cycleNumber = s.cycleNumber := rfl
@[simp] theorem updGroup_cycleTimer (s : State) (k : GroupId) (f : GroupRec → GroupRec) : (s.updGroup k f).cycleTimer = s.cycleTimer := rfl
@[simp] theorem updGroup_patrol (s : State) (k : GroupId) (f : GroupRec → GroupRec) : (s.updGroup k f).patrol = s.patrol := rfl
@[simp] theorem updGroup_scrubTimer (s : State) (k : GroupId) (f : GroupRec → GroupRec) : (s.updGroup k f).scrubTimer = s.scrubTimer := rfl
@[simp] theorem updGroup_log (s : State) (k : GroupId) (f : GroupRec → GroupRec) : (s.updGroup k f).log = s.log := rfl
@[simp] theorem updGroup_dev (s : State) (k : GroupId) (f : GroupRec → GroupRec) : (s.updGroup k f).dev = s.dev := rfl
@[simp] theorem updGroup_startCause (s : State) (k : GroupId) (f : GroupRec → GroupRec) : (s.updGroup k f).startCause = s.startCause := rfl
@[simp] theorem updGroup_torn (s : State) (k : GroupId) (f : GroupRec → GroupRec) : (s.updGroup k f).torn = s.torn := rfl
@[simp] theorem updGroup_resetLow (s : State) (k : GroupId) (f : GroupRec → GroupRec) : (s.updGroup k f).resetLow = s.resetLow := rfl
@[simp] theorem updGroup_ports (s : State) (k : GroupId) (f : GroupRec → GroupRec) : (s.updGroup k f).ports = s.ports := rfl
@[simp] theorem updGroup_port (s : State) (k : GroupId) (f : GroupRec → GroupRec) (m : Port) : (s.updGroup k f).port m = s.port m := rfl
@[simp] theorem updGroup_arrivals (s : State) (k : GroupId) (f : GroupRec → GroupRec) : (s.updGroup k f).arrivals = s.arrivals := rfl
@[simp] theorem updGroup_pending (s : State) (k : GroupId) (f : GroupRec → GroupRec) : (s.updGroup k f).pending = s.pending := rfl

/-! ### putWord changes `store` alone -/

@[simp] theorem putWord_banks (s : State) (slot : Nat) (w : WordName) (y : Stored) : (s.putWord slot w y).banks = s.banks := rfl
@[simp] theorem putWord_bank (s : State) (slot : Nat) (w : WordName) (y : Stored) (b : BankId) : (s.putWord slot w y).bank b = s.bank b := rfl
@[simp] theorem putWord_freeList (s : State) (slot : Nat) (w : WordName) (y : Stored) : (s.putWord slot w y).freeList = s.freeList := rfl
@[simp] theorem putWord_heldBack (s : State) (slot : Nat) (w : WordName) (y : Stored) : (s.putWord slot w y).heldBack = s.heldBack := rfl
@[simp] theorem putWord_groups (s : State) (slot : Nat) (w : WordName) (y : Stored) : (s.putWord slot w y).groups = s.groups := rfl
@[simp] theorem putWord_group (s : State) (slot : Nat) (w : WordName) (y : Stored) (g : GroupId) : (s.putWord slot w y).group g = s.group g := rfl
@[simp] theorem putWord_loadQueue (s : State) (slot : Nat) (w : WordName) (y : Stored) : (s.putWord slot w y).loadQueue = s.loadQueue := rfl
@[simp] theorem putWord_engine (s : State) (slot : Nat) (w : WordName) (y : Stored) : (s.putWord slot w y).engine = s.engine := rfl
@[simp] theorem putWord_load (s : State) (slot : Nat) (w : WordName) (y : Stored) : (s.putWord slot w y).load = s.load := rfl
@[simp] theorem putWord_cycleNumber (s : State) (slot : Nat) (w : WordName) (y : Stored) : (s.putWord slot w y).cycleNumber = s.cycleNumber := rfl
@[simp] theorem putWord_cycleTimer (s : State) (slot : Nat) (w : WordName) (y : Stored) : (s.putWord slot w y).cycleTimer = s.cycleTimer := rfl
@[simp] theorem putWord_patrol (s : State) (slot : Nat) (w : WordName) (y : Stored) : (s.putWord slot w y).patrol = s.patrol := rfl
@[simp] theorem putWord_scrubTimer (s : State) (slot : Nat) (w : WordName) (y : Stored) : (s.putWord slot w y).scrubTimer = s.scrubTimer := rfl
@[simp] theorem putWord_log (s : State) (slot : Nat) (w : WordName) (y : Stored) : (s.putWord slot w y).log = s.log := rfl
@[simp] theorem putWord_dev (s : State) (slot : Nat) (w : WordName) (y : Stored) : (s.putWord slot w y).dev = s.dev := rfl
@[simp] theorem putWord_startCause (s : State) (slot : Nat) (w : WordName) (y : Stored) : (s.putWord slot w y).startCause = s.startCause := rfl
@[simp] theorem putWord_torn (s : State) (slot : Nat) (w : WordName) (y : Stored) : (s.putWord slot w y).torn = s.torn := rfl
@[simp] theorem putWord_resetLow (s : State) (slot : Nat) (w : WordName) (y : Stored) : (s.putWord slot w y).resetLow = s.resetLow := rfl
@[simp] theorem putWord_ports (s : State) (slot : Nat) (w : WordName) (y : Stored) : (s.putWord slot w y).ports = s.ports := rfl
@[simp] theorem putWord_port (s : State) (slot : Nat) (w : WordName) (y : Stored) (m : Port) : (s.putWord slot w y).port m = s.port m := rfl
@[simp] theorem putWord_arrivals (s : State) (slot : Nat) (w : WordName) (y : Stored) : (s.putWord slot w y).arrivals = s.arrivals := rfl
@[simp] theorem putWord_pending (s : State) (slot : Nat) (w : WordName) (y : Stored) : (s.putWord slot w y).pending = s.pending := rfl

/-! ### writeWord changes `store` alone -/

@[simp] theorem writeWord_banks (s : State) (slot : Nat) (w : WordName) (v : Value) : (s.writeWord slot w v).banks = s.banks := rfl
@[simp] theorem writeWord_bank (s : State) (slot : Nat) (w : WordName) (v : Value) (b : BankId) : (s.writeWord slot w v).bank b = s.bank b := rfl
@[simp] theorem writeWord_freeList (s : State) (slot : Nat) (w : WordName) (v : Value) : (s.writeWord slot w v).freeList = s.freeList := rfl
@[simp] theorem writeWord_heldBack (s : State) (slot : Nat) (w : WordName) (v : Value) : (s.writeWord slot w v).heldBack = s.heldBack := rfl
@[simp] theorem writeWord_groups (s : State) (slot : Nat) (w : WordName) (v : Value) : (s.writeWord slot w v).groups = s.groups := rfl
@[simp] theorem writeWord_group (s : State) (slot : Nat) (w : WordName) (v : Value) (g : GroupId) : (s.writeWord slot w v).group g = s.group g := rfl
@[simp] theorem writeWord_loadQueue (s : State) (slot : Nat) (w : WordName) (v : Value) : (s.writeWord slot w v).loadQueue = s.loadQueue := rfl
@[simp] theorem writeWord_engine (s : State) (slot : Nat) (w : WordName) (v : Value) : (s.writeWord slot w v).engine = s.engine := rfl
@[simp] theorem writeWord_load (s : State) (slot : Nat) (w : WordName) (v : Value) : (s.writeWord slot w v).load = s.load := rfl
@[simp] theorem writeWord_cycleNumber (s : State) (slot : Nat) (w : WordName) (v : Value) : (s.writeWord slot w v).cycleNumber = s.cycleNumber := rfl
@[simp] theorem writeWord_cycleTimer (s : State) (slot : Nat) (w : WordName) (v : Value) : (s.writeWord slot w v).cycleTimer = s.cycleTimer := rfl
@[simp] theorem writeWord_patrol (s : State) (slot : Nat) (w : WordName) (v : Value) : (s.writeWord slot w v).patrol = s.patrol := rfl
@[simp] theorem writeWord_scrubTimer (s : State) (slot : Nat) (w : WordName) (v : Value) : (s.writeWord slot w v).scrubTimer = s.scrubTimer := rfl
@[simp] theorem writeWord_log (s : State) (slot : Nat) (w : WordName) (v : Value) : (s.writeWord slot w v).log = s.log := rfl
@[simp] theorem writeWord_dev (s : State) (slot : Nat) (w : WordName) (v : Value) : (s.writeWord slot w v).dev = s.dev := rfl
@[simp] theorem writeWord_startCause (s : State) (slot : Nat) (w : WordName) (v : Value) : (s.writeWord slot w v).startCause = s.startCause := rfl
@[simp] theorem writeWord_torn (s : State) (slot : Nat) (w : WordName) (v : Value) : (s.writeWord slot w v).torn = s.torn := rfl
@[simp] theorem writeWord_resetLow (s : State) (slot : Nat) (w : WordName) (v : Value) : (s.writeWord slot w v).resetLow = s.resetLow := rfl
@[simp] theorem writeWord_ports (s : State) (slot : Nat) (w : WordName) (v : Value) : (s.writeWord slot w v).ports = s.ports := rfl
@[simp] theorem writeWord_port (s : State) (slot : Nat) (w : WordName) (v : Value) (m : Port) : (s.writeWord slot w v).port m = s.port m := rfl
@[simp] theorem writeWord_arrivals (s : State) (slot : Nat) (w : WordName) (v : Value) : (s.writeWord slot w v).arrivals = s.arrivals := rfl
@[simp] theorem writeWord_pending (s : State) (slot : Nat) (w : WordName) (v : Value) : (s.writeWord slot w v).pending = s.pending := rfl

/-! ### raise changes `ports` alone -/

@[simp] theorem raise_store (s : State) (n : Port) (k : EventKind) : (s.raise n k).store = s.store := rfl
@[simp] theorem raise_word (s : State) (n : Port) (k : EventKind) (i : Nat) (x : WordName) : (s.raise n k).word i x = s.word i x := rfl
@[simp] theorem raise_banks (s : State) (n : Port) (k : EventKind) : (s.raise n k).banks = s.banks := rfl
@[simp] theorem raise_bank (s : State) (n : Port) (k : EventKind) (b : BankId) : (s.raise n k).bank b = s.bank b := rfl
@[simp] theorem raise_freeList (s : State) (n : Port) (k : EventKind) : (s.raise n k).freeList = s.freeList := rfl
@[simp] theorem raise_heldBack (s : State) (n : Port) (k : EventKind) : (s.raise n k).heldBack = s.heldBack := rfl
@[simp] theorem raise_groups (s : State) (n : Port) (k : EventKind) : (s.raise n k).groups = s.groups := rfl
@[simp] theorem raise_group (s : State) (n : Port) (k : EventKind) (g : GroupId) : (s.raise n k).group g = s.group g := rfl
@[simp] theorem raise_loadQueue (s : State) (n : Port) (k : EventKind) : (s.raise n k).loadQueue = s.loadQueue := rfl
@[simp] theorem raise_engine (s : State) (n : Port) (k : EventKind) : (s.raise n k).engine = s.engine := rfl
@[simp] theorem raise_load (s : State) (n : Port) (k : EventKind) : (s.raise n k).load = s.load := rfl
@[simp] theorem raise_cycleNumber (s : State) (n : Port) (k : EventKind) : (s.raise n k).cycleNumber = s.cycleNumber := rfl
@[simp] theorem raise_cycleTimer (s : State) (n : Port) (k : EventKind) : (s.raise n k).cycleTimer = s.cycleTimer := rfl
@[simp] theorem raise_patrol (s : State) (n : Port) (k : EventKind) : (s.raise n k).patrol = s.patrol := rfl
@[simp] theorem raise_scrubTimer (s : State) (n : Port) (k : EventKind) : (s.raise n k).scrubTimer = s.scrubTimer := rfl
@[simp] theorem raise_log (s : State) (n : Port) (k : EventKind) : (s.raise n k).log = s.log := rfl
@[simp] theorem raise_dev (s : State) (n : Port) (k : EventKind) : (s.raise n k).dev = s.dev := rfl
@[simp] theorem raise_startCause (s : State) (n : Port) (k : EventKind) : (s.raise n k).startCause = s.startCause := rfl
@[simp] theorem raise_torn (s : State) (n : Port) (k : EventKind) : (s.raise n k).torn = s.torn := rfl
@[simp] theorem raise_resetLow (s : State) (n : Port) (k : EventKind) : (s.raise n k).resetLow = s.resetLow := rfl
@[simp] theorem raise_arrivals (s : State) (n : Port) (k : EventKind) : (s.raise n k).arrivals = s.arrivals := rfl
@[simp] theorem raise_pending (s : State) (n : Port) (k : EventKind) : (s.raise n k).pending = s.pending := rfl

/-! ### raiseAll changes `ports` alone -/

@[simp] theorem raiseAll_store (s : State) (k : EventKind) : (s.raiseAll k).store = s.store := rfl
@[simp] theorem raiseAll_word (s : State) (k : EventKind) (i : Nat) (x : WordName) : (s.raiseAll k).word i x = s.word i x := rfl
@[simp] theorem raiseAll_banks (s : State) (k : EventKind) : (s.raiseAll k).banks = s.banks := rfl
@[simp] theorem raiseAll_bank (s : State) (k : EventKind) (b : BankId) : (s.raiseAll k).bank b = s.bank b := rfl
@[simp] theorem raiseAll_freeList (s : State) (k : EventKind) : (s.raiseAll k).freeList = s.freeList := rfl
@[simp] theorem raiseAll_heldBack (s : State) (k : EventKind) : (s.raiseAll k).heldBack = s.heldBack := rfl
@[simp] theorem raiseAll_groups (s : State) (k : EventKind) : (s.raiseAll k).groups = s.groups := rfl
@[simp] theorem raiseAll_group (s : State) (k : EventKind) (g : GroupId) : (s.raiseAll k).group g = s.group g := rfl
@[simp] theorem raiseAll_loadQueue (s : State) (k : EventKind) : (s.raiseAll k).loadQueue = s.loadQueue := rfl
@[simp] theorem raiseAll_engine (s : State) (k : EventKind) : (s.raiseAll k).engine = s.engine := rfl
@[simp] theorem raiseAll_load (s : State) (k : EventKind) : (s.raiseAll k).load = s.load := rfl
@[simp] theorem raiseAll_cycleNumber (s : State) (k : EventKind) : (s.raiseAll k).cycleNumber = s.cycleNumber := rfl
@[simp] theorem raiseAll_cycleTimer (s : State) (k : EventKind) : (s.raiseAll k).cycleTimer = s.cycleTimer := rfl
@[simp] theorem raiseAll_patrol (s : State) (k : EventKind) : (s.raiseAll k).patrol = s.patrol := rfl
@[simp] theorem raiseAll_scrubTimer (s : State) (k : EventKind) : (s.raiseAll k).scrubTimer = s.scrubTimer := rfl
@[simp] theorem raiseAll_log (s : State) (k : EventKind) : (s.raiseAll k).log = s.log := rfl
@[simp] theorem raiseAll_dev (s : State) (k : EventKind) : (s.raiseAll k).dev = s.dev := rfl
@[simp] theorem raiseAll_startCause (s : State) (k : EventKind) : (s.raiseAll k).startCause = s.startCause := rfl
@[simp] theorem raiseAll_torn (s : State) (k : EventKind) : (s.raiseAll k).torn = s.torn := rfl
@[simp] theorem raiseAll_resetLow (s : State) (k : EventKind) : (s.raiseAll k).resetLow = s.resetLow := rfl
@[simp] theorem raiseAll_arrivals (s : State) (k : EventKind) : (s.raiseAll k).arrivals = s.arrivals := rfl
@[simp] theorem raiseAll_pending (s : State) (k : EventKind) : (s.raiseAll k).pending = s.pending := rfl

/-! ### place changes `banks` and `heldBack` alone -/

@[simp] theorem place_store (s : State) (op : BankOp) : (s.place op).store = s.store := rfl
@[simp] theorem place_word (s : State) (op : BankOp) (i : Nat) (x : WordName) : (s.place op).word i x = s.word i x := rfl
@[simp] theorem place_freeList (s : State) (op : BankOp) : (s.place op).freeList = s.freeList := rfl
@[simp] theorem place_groups (s : State) (op : BankOp) : (s.place op).groups = s.groups := rfl
@[simp] theorem place_group (s : State) (op : BankOp) (g : GroupId) : (s.place op).group g = s.group g := rfl
@[simp] theorem place_loadQueue (s : State) (op : BankOp) : (s.place op).loadQueue = s.loadQueue := rfl
@[simp] theorem place_engine (s : State) (op : BankOp) : (s.place op).engine = s.engine := rfl
@[simp] theorem place_load (s : State) (op : BankOp) : (s.place op).load = s.load := rfl
@[simp] theorem place_cycleNumber (s : State) (op : BankOp) : (s.place op).cycleNumber = s.cycleNumber := rfl
@[simp] theorem place_cycleTimer (s : State) (op : BankOp) : (s.place op).cycleTimer = s.cycleTimer := rfl
@[simp] theorem place_patrol (s : State) (op : BankOp) : (s.place op).patrol = s.patrol := rfl
@[simp] theorem place_scrubTimer (s : State) (op : BankOp) : (s.place op).scrubTimer = s.scrubTimer := rfl
@[simp] theorem place_log (s : State) (op : BankOp) : (s.place op).log = s.log := rfl
@[simp] theorem place_dev (s : State) (op : BankOp) : (s.place op).dev = s.dev := rfl
@[simp] theorem place_startCause (s : State) (op : BankOp) : (s.place op).startCause = s.startCause := rfl
@[simp] theorem place_torn (s : State) (op : BankOp) : (s.place op).torn = s.torn := rfl
@[simp] theorem place_resetLow (s : State) (op : BankOp) : (s.place op).resetLow = s.resetLow := rfl
@[simp] theorem place_ports (s : State) (op : BankOp) : (s.place op).ports = s.ports := rfl
@[simp] theorem place_port (s : State) (op : BankOp) (m : Port) : (s.place op).port m = s.port m := rfl
@[simp] theorem place_arrivals (s : State) (op : BankOp) : (s.place op).arrivals = s.arrivals := rfl
@[simp] theorem place_pending (s : State) (op : BankOp) : (s.place op).pending = s.pending := rfl

/-! ### grantNext changes `banks` alone -/

@[simp] theorem grantNext_store (s : State) (k : BankId) : (s.grantNext k).store = s.store := rfl
@[simp] theorem grantNext_word (s : State) (k : BankId) (i : Nat) (x : WordName) : (s.grantNext k).word i x = s.word i x := rfl
@[simp] theorem grantNext_freeList (s : State) (k : BankId) : (s.grantNext k).freeList = s.freeList := rfl
@[simp] theorem grantNext_heldBack (s : State) (k : BankId) : (s.grantNext k).heldBack = s.heldBack := rfl
@[simp] theorem grantNext_groups (s : State) (k : BankId) : (s.grantNext k).groups = s.groups := rfl
@[simp] theorem grantNext_group (s : State) (k : BankId) (g : GroupId) : (s.grantNext k).group g = s.group g := rfl
@[simp] theorem grantNext_loadQueue (s : State) (k : BankId) : (s.grantNext k).loadQueue = s.loadQueue := rfl
@[simp] theorem grantNext_engine (s : State) (k : BankId) : (s.grantNext k).engine = s.engine := rfl
@[simp] theorem grantNext_load (s : State) (k : BankId) : (s.grantNext k).load = s.load := rfl
@[simp] theorem grantNext_cycleNumber (s : State) (k : BankId) : (s.grantNext k).cycleNumber = s.cycleNumber := rfl
@[simp] theorem grantNext_cycleTimer (s : State) (k : BankId) : (s.grantNext k).cycleTimer = s.cycleTimer := rfl
@[simp] theorem grantNext_patrol (s : State) (k : BankId) : (s.grantNext k).patrol = s.patrol := rfl
@[simp] theorem grantNext_scrubTimer (s : State) (k : BankId) : (s.grantNext k).scrubTimer = s.scrubTimer := rfl
@[simp] theorem grantNext_log (s : State) (k : BankId) : (s.grantNext k).log = s.log := rfl
@[simp] theorem grantNext_dev (s : State) (k : BankId) : (s.grantNext k).dev = s.dev := rfl
@[simp] theorem grantNext_startCause (s : State) (k : BankId) : (s.grantNext k).startCause = s.startCause := rfl
@[simp] theorem grantNext_torn (s : State) (k : BankId) : (s.grantNext k).torn = s.torn := rfl
@[simp] theorem grantNext_resetLow (s : State) (k : BankId) : (s.grantNext k).resetLow = s.resetLow := rfl
@[simp] theorem grantNext_ports (s : State) (k : BankId) : (s.grantNext k).ports = s.ports := rfl
@[simp] theorem grantNext_port (s : State) (k : BankId) (m : Port) : (s.grantNext k).port m = s.port m := rfl
@[simp] theorem grantNext_arrivals (s : State) (k : BankId) : (s.grantNext k).arrivals = s.arrivals := rfl
@[simp] theorem grantNext_pending (s : State) (k : BankId) : (s.grantNext k).pending = s.pending := rfl

/-! ### setEngine changes `ports` alone -/

@[simp] theorem setEngine_store (s : State) (n : Port) (e : Engine) : (s.setEngine n e).store = s.store := rfl
@[simp] theorem setEngine_word (s : State) (n : Port) (e : Engine) (i : Nat) (x : WordName) : (s.setEngine n e).word i x = s.word i x := rfl
@[simp] theorem setEngine_banks (s : State) (n : Port) (e : Engine) : (s.setEngine n e).banks = s.banks := rfl
@[simp] theorem setEngine_bank (s : State) (n : Port) (e : Engine) (b : BankId) : (s.setEngine n e).bank b = s.bank b := rfl
@[simp] theorem setEngine_freeList (s : State) (n : Port) (e : Engine) : (s.setEngine n e).freeList = s.freeList := rfl
@[simp] theorem setEngine_heldBack (s : State) (n : Port) (e : Engine) : (s.setEngine n e).heldBack = s.heldBack := rfl
@[simp] theorem setEngine_groups (s : State) (n : Port) (e : Engine) : (s.setEngine n e).groups = s.groups := rfl
@[simp] theorem setEngine_group (s : State) (n : Port) (e : Engine) (g : GroupId) : (s.setEngine n e).group g = s.group g := rfl
@[simp] theorem setEngine_loadQueue (s : State) (n : Port) (e : Engine) : (s.setEngine n e).loadQueue = s.loadQueue := rfl
@[simp] theorem setEngine_engine (s : State) (n : Port) (e : Engine) : (s.setEngine n e).engine = s.engine := rfl
@[simp] theorem setEngine_load (s : State) (n : Port) (e : Engine) : (s.setEngine n e).load = s.load := rfl
@[simp] theorem setEngine_cycleNumber (s : State) (n : Port) (e : Engine) : (s.setEngine n e).cycleNumber = s.cycleNumber := rfl
@[simp] theorem setEngine_cycleTimer (s : State) (n : Port) (e : Engine) : (s.setEngine n e).cycleTimer = s.cycleTimer := rfl
@[simp] theorem setEngine_patrol (s : State) (n : Port) (e : Engine) : (s.setEngine n e).patrol = s.patrol := rfl
@[simp] theorem setEngine_scrubTimer (s : State) (n : Port) (e : Engine) : (s.setEngine n e).scrubTimer = s.scrubTimer := rfl
@[simp] theorem setEngine_log (s : State) (n : Port) (e : Engine) : (s.setEngine n e).log = s.log := rfl
@[simp] theorem setEngine_dev (s : State) (n : Port) (e : Engine) : (s.setEngine n e).dev = s.dev := rfl
@[simp] theorem setEngine_startCause (s : State) (n : Port) (e : Engine) : (s.setEngine n e).startCause = s.startCause := rfl
@[simp] theorem setEngine_torn (s : State) (n : Port) (e : Engine) : (s.setEngine n e).torn = s.torn := rfl
@[simp] theorem setEngine_resetLow (s : State) (n : Port) (e : Engine) : (s.setEngine n e).resetLow = s.resetLow := rfl
@[simp] theorem setEngine_arrivals (s : State) (n : Port) (e : Engine) : (s.setEngine n e).arrivals = s.arrivals := rfl
@[simp] theorem setEngine_pending (s : State) (n : Port) (e : Engine) : (s.setEngine n e).pending = s.pending := rfl

/-! ### updCfg changes `ports` alone -/

@[simp] theorem updCfg_store (s : State) (n : Port) (f : PortSettings → PortSettings) : (s.updCfg n f).store = s.store := rfl
@[simp] theorem updCfg_word (s : State) (n : Port) (f : PortSettings → PortSettings) (i : Nat) (x : WordName) : (s.updCfg n f).word i x = s.word i x := rfl
@[simp] theorem updCfg_banks (s : State) (n : Port) (f : PortSettings → PortSettings) : (s.updCfg n f).banks = s.banks := rfl
@[simp] theorem updCfg_bank (s : State) (n : Port) (f : PortSettings → PortSettings) (b : BankId) : (s.updCfg n f).bank b = s.bank b := rfl
@[simp] theorem updCfg_freeList (s : State) (n : Port) (f : PortSettings → PortSettings) : (s.updCfg n f).freeList = s.freeList := rfl
@[simp] theorem updCfg_heldBack (s : State) (n : Port) (f : PortSettings → PortSettings) : (s.updCfg n f).heldBack = s.heldBack := rfl
@[simp] theorem updCfg_groups (s : State) (n : Port) (f : PortSettings → PortSettings) : (s.updCfg n f).groups = s.groups := rfl
@[simp] theorem updCfg_group (s : State) (n : Port) (f : PortSettings → PortSettings) (g : GroupId) : (s.updCfg n f).group g = s.group g := rfl
@[simp] theorem updCfg_loadQueue (s : State) (n : Port) (f : PortSettings → PortSettings) : (s.updCfg n f).loadQueue = s.loadQueue := rfl
@[simp] theorem updCfg_engine (s : State) (n : Port) (f : PortSettings → PortSettings) : (s.updCfg n f).engine = s.engine := rfl
@[simp] theorem updCfg_load (s : State) (n : Port) (f : PortSettings → PortSettings) : (s.updCfg n f).load = s.load := rfl
@[simp] theorem updCfg_cycleNumber (s : State) (n : Port) (f : PortSettings → PortSettings) : (s.updCfg n f).cycleNumber = s.cycleNumber := rfl
@[simp] theorem updCfg_cycleTimer (s : State) (n : Port) (f : PortSettings → PortSettings) : (s.updCfg n f).cycleTimer = s.cycleTimer := rfl
@[simp] theorem updCfg_patrol (s : State) (n : Port) (f : PortSettings → PortSettings) : (s.updCfg n f).patrol = s.patrol := rfl
@[simp] theorem updCfg_scrubTimer (s : State) (n : Port) (f : PortSettings → PortSettings) : (s.updCfg n f).scrubTimer = s.scrubTimer := rfl
@[simp] theorem updCfg_log (s : State) (n : Port) (f : PortSettings → PortSettings) : (s.updCfg n f).log = s.log := rfl
@[simp] theorem updCfg_dev (s : State) (n : Port) (f : PortSettings → PortSettings) : (s.updCfg n f).dev = s.dev := rfl
@[simp] theorem updCfg_startCause (s : State) (n : Port) (f : PortSettings → PortSettings) : (s.updCfg n f).startCause = s.startCause := rfl
@[simp] theorem updCfg_torn (s : State) (n : Port) (f : PortSettings → PortSettings) : (s.updCfg n f).torn = s.torn := rfl
@[simp] theorem updCfg_resetLow (s : State) (n : Port) (f : PortSettings → PortSettings) : (s.updCfg n f).resetLow = s.resetLow := rfl
@[simp] theorem updCfg_arrivals (s : State) (n : Port) (f : PortSettings → PortSettings) : (s.updCfg n f).arrivals = s.arrivals := rfl
@[simp] theorem updCfg_pending (s : State) (n : Port) (f : PortSettings → PortSettings) : (s.updCfg n f).pending = s.pending := rfl

/-! ### Where an update writes -/

@[simp] theorem port_setPort_self (s : State) (n : Port) (p : PortState) : (s.setPort n p).port n = p := by
  simp [port, setPort]

theorem port_setPort_of_ne (s : State) (n m : Port) (p : PortState) (h : n ≠ m) : (s.setPort n p).port m = s.port m := by
  have : n.val ≠ m.val := fun e => h (Fin.ext e)
  simp [port, setPort, this]

@[simp] theorem port_updPort_self (s : State) (n : Port) (f : PortState → PortState) :
    (s.updPort n f).port n = f (s.port n) := port_setPort_self _ _ _

theorem port_updPort_of_ne (s : State) (n m : Port) (f : PortState → PortState) (h : n ≠ m) :
    (s.updPort n f).port m = s.port m := port_setPort_of_ne _ _ _ _ h

theorem port_updPort (s : State) (n m : Port) (f : PortState → PortState) :
    (s.updPort n f).port m = if n = m then f (s.port m) else s.port m := by
  split
  · next h => subst h; simp
  · next h => exact port_updPort_of_ne _ _ _ _ h

@[simp] theorem setPort_setPort (s : State) (n : Port) (p q : PortState) : (s.setPort n p).setPort n q = s.setPort n q := by
  simp [setPort]

@[simp] theorem updPort_updPort (s : State) (n : Port) (f g : PortState → PortState) :
    (s.updPort n f).updPort n g = s.updPort n (fun p => g (f p)) := by
  simp [updPort]

theorem getElem_mapAll {α β : Type} {k : Nat} (f : α → β) (v : Vector α k) (i : Nat) (h : i < k) :
    (mapAll f v)[i] = f v[i] := by
  simp [mapAll, Vector.getElem_mk]

@[simp] theorem port_updAllPorts (s : State) (f : PortState → PortState) (n : Port) :
    (s.updAllPorts f).port n = f (s.port n) := getElem_mapAll _ _ _ _

@[simp] theorem bank_setBank_self (s : State) (b : BankId) (x : Bank) : (s.setBank b x).bank b = x := by
  simp [bank, setBank]

theorem bank_setBank_of_ne (s : State) (b c : BankId) (x : Bank) (h : b ≠ c) : (s.setBank b x).bank c = s.bank c := by
  have : b.val ≠ c.val := fun e => h (Fin.ext e)
  simp [bank, setBank, this]

@[simp] theorem bank_updBank_self (s : State) (b : BankId) (f : Bank → Bank) : (s.updBank b f).bank b = f (s.bank b) :=
  bank_setBank_self _ _ _

theorem bank_updBank (s : State) (b c : BankId) (f : Bank → Bank) :
    (s.updBank b f).bank c = if b = c then f (s.bank c) else s.bank c := by
  split
  · next h => subst h; simp
  · next h => exact bank_setBank_of_ne _ _ _ _ h

@[simp] theorem bank_updAllBanks (s : State) (f : Bank → Bank) (b : BankId) : (s.updAllBanks f).bank b = f (s.bank b) :=
  getElem_mapAll _ _ _ _

@[simp] theorem group_setGroup_self (s : State) (g : GroupId) (r : GroupRec) : (s.setGroup g r).group g = r := by
  simp [group, setGroup]

theorem group_setGroup_of_ne (s : State) (g k : GroupId) (r : GroupRec) (h : g ≠ k) :
    (s.setGroup g r).group k = s.group k := by
  have : g.val ≠ k.val := fun e => h (Fin.ext e)
  simp [group, setGroup, this]

@[simp] theorem group_updGroup_self (s : State) (g : GroupId) (f : GroupRec → GroupRec) :
    (s.updGroup g f).group g = f (s.group g) := group_setGroup_self _ _ _

theorem group_updGroup (s : State) (g k : GroupId) (f : GroupRec → GroupRec) :
    (s.updGroup g f).group k = if g = k then f (s.group k) else s.group k := by
  split
  · next h => subst h; simp
  · next h => exact group_setGroup_of_ne _ _ _ _ h

theorem port_setEngine (s : State) (n m : Port) (e : Engine) :
    (s.setEngine n e).port m = if n = m then { s.port m with ce := e } else s.port m := port_updPort _ _ _ _

@[simp] theorem port_setEngine_self (s : State) (n : Port) (e : Engine) :
    (s.setEngine n e).port n = { s.port n with ce := e } := port_updPort_self _ _ _

theorem port_raise (s : State) (n m : Port) (k : EventKind) :
    (s.raise n k).port m = if n = m then (s.port m).raise k else s.port m := port_updPort _ _ _ _

@[simp] theorem port_raiseAll (s : State) (k : EventKind) (n : Port) : (s.raiseAll k).port n = (s.port n).raise k :=
  port_updAllPorts _ _ _

/-- Barring an operation keeps all of it but the mark of a fill of that port. -/
theorem barFill_cases (n : Port) (size : Nat) (op : BankOp) :
    op.barFill n size = op ∨ ∃ l old, op.act = .mapFill l old ∧ op.who = .ce n ∧ size ≤ l ∧
      op.barFill n size = { op with act := .mapFill l false } := by
  unfold BankOp.barFill
  split
  · next l old h =>
    split
    · next hc => exact .inr ⟨l, old, h, hc.1, hc.2, rfl⟩
    · exact .inl rfl
  · exact .inl rfl

theorem place_of_free (s : State) (op : BankOp) (h : s.outstanding op.who = false) : s.place op = s.arriveAt op := by
  simp [place, arriveAt, updBank, setBank, h]

theorem place_of_outstanding (s : State) (op : BankOp) (h : s.outstanding op.who = true) :
    s.place op = { s with heldBack := s.heldBack.filter (fun x => x.who != op.who) ++ [op] } := by
  simp [place, forget, h]

theorem bank_arriveAt (s : State) (op : BankOp) (b : BankId) :
    (s.arriveAt op).bank b = if bankOf op.slot = b then (s.bank b).arrive op else s.bank b := bank_updBank _ _ _ _

theorem bank_place (s : State) (op : BankOp) (b : BankId) :
    (s.place op).bank b =
      if s.outstanding op.who = false ∧ bankOf op.slot = b then (s.bank b).arrive op else s.bank b := by
  cases h : s.outstanding op.who
  · rw [place_of_free _ _ h, bank_arriveAt]; simp
  · rw [place_of_outstanding _ _ h]; simp [bank]

/-- A request that is released is placed, and no longer held back; with none held back nothing changes. -/
theorem release_cases (s : State) (r : Requester) :
    s.release r = s ∨ ∃ op ∈ s.heldBack, op.who = r ∧ s.release r = (s.forget r).place op := by
  unfold release
  split
  · exact .inl rfl
  · next op h =>
    exact .inr ⟨op, List.mem_of_find?_eq_some h, by simpa using List.find?_some h, rfl⟩

theorem bank_grantNext (s : State) (k b : BankId) :
    (s.grantNext k).bank b = if k = b then (s.bank b).grantNext s.dev.guarantee.toNat else s.bank b := bank_updBank _ _ _ _

end Sys2Proof.Machine.State
end

