-- ==== Sys2Proof/Laws/Store.lean ====
section
/-! SUPPORT. The store's reads and writes (R4, R5): what a read gives after a write, and the canonical form kept. -/

namespace Sys2Proof.Machine

/-- The canonical form in words: addresses strictly rising, no entry equal to the fill's word. -/
theorem Store.wf_cons (k : Nat) (x : Stored) (m : Store) :
    Store.wf ((k, x) :: m) = true ↔ x ≠ fillWord ∧ (∀ e ∈ m.head?, k < e.1) ∧ Store.wf m = true := by
  cases m with
  | nil => simp [Store.wf]
  | cons e m => obtain ⟨k', x'⟩ := e; simp [Store.wf, and_assoc]

theorem Store.wf_tail {e : Nat × Stored} {m : Store} (h : Store.wf (e :: m) = true) : Store.wf m = true :=
  ((Store.wf_cons e.1 e.2 m).1 h).2.2

/-- In a canonical store no later entry has an address up to the first's. -/
theorem storeRead_below {k : Nat} {x : Stored} {m : Store} (h : Store.wf ((k, x) :: m) = true) {a : Nat} (ha : a ≤ k) :
    storeRead m a = fillWord := by
  induction m generalizing k x with
  | nil => rfl
  | cons e m ih =>
    obtain ⟨k', x'⟩ := e
    have hk := ((Store.wf_cons _ _ _).1 h).2.1 (k', x') rfl
    have hne : ¬ k' = a := by simp only at hk; omega
    simp only [storeRead, hne, if_false]
    exact ih (Store.wf_tail h) (by simp only at hk; omega)

theorem storeRead_storeWrite_of_ne (m : Store) (a b : Nat) (x : Stored) (h : a ≠ b) :
    storeRead (storeWrite m a x) b = storeRead m b := by
  induction m with
  | nil => simp only [storeWrite]; split <;> simp [storeRead, h]
  | cons e m ih =>
    obtain ⟨k, y⟩ := e
    simp only [storeWrite]
    split
    · split <;> simp [storeRead, h]
    · split
      · next _ hk => subst hk; split <;> simp [storeRead, h]
      · simp only [storeRead, ih]

theorem storeRead_storeWrite_self (m : Store) (a : Nat) (x : Stored) (h : Store.wf m = true) :
    storeRead (storeWrite m a x) a = x := by
  induction m with
  | nil => simp only [storeWrite]; split <;> simp_all [storeRead]
  | cons e m ih =>
    obtain ⟨k, y⟩ := e
    simp only [storeWrite]
    split
    · next hak =>
      split
      · next hx =>
        have hne : ¬ k = a := by omega
        simp only [storeRead, hne, if_false, hx]
        exact storeRead_below h (by omega)
      · simp [storeRead]
    · split
      · next _ hk =>
        subst hk
        split
        · next hx => rw [hx]; exact storeRead_below h (Nat.le_refl _)
        · simp [storeRead]
      · next h1 h2 =>
        have hne : ¬ k = a := fun e => h2 e.symm
        simp only [storeRead, hne, if_false]
        exact ih (Store.wf_tail h)

theorem storeWrite_head (m : Store) (a k : Nat) (x : Stored) (hm : ∀ e ∈ m.head?, k < e.1) (ha : k < a)
    (hw : Store.wf m = true) : ∀ e ∈ (storeWrite m a x).head?, k < e.1 := by
  cases m with
  | nil => simp only [storeWrite]; split <;> simp [ha]
  | cons e m =>
    obtain ⟨k', y⟩ := e
    have hk : k < k' := hm (k', y) rfl
    have hw' := (Store.wf_cons _ _ _).1 hw
    simp only [storeWrite]
    split
    · split <;> simp [ha, hk]
    · split
      · split
        · intro e he; have := hw'.2.1 e he; omega
        · simp [ha]
      · simp [hk]

/-- Every write keeps the canonical form. -/
theorem storeWrite_wf (m : Store) (a : Nat) (x : Stored) (h : Store.wf m = true) : Store.wf (storeWrite m a x) = true := by
  induction m with
  | nil => simp only [storeWrite]; split <;> simp_all [Store.wf]
  | cons e m ih =>
    obtain ⟨k, y⟩ := e
    have hw := (Store.wf_cons _ _ _).1 h
    simp only [storeWrite]
    split
    · next hak =>
      split
      · exact h
      · next hx => exact (Store.wf_cons _ _ _).2 ⟨hx, by simpa using hak, h⟩
    · next hak =>
      split
      · next hk =>
        split
        · exact hw.2.2
        · next hx => exact (Store.wf_cons _ _ _).2 ⟨hx, by rw [hk]; exact hw.2.1, hw.2.2⟩
      · next hk =>
        exact (Store.wf_cons _ _ _).2 ⟨hw.1, storeWrite_head m a k x hw.2.1 (by omega) hw.2.2, ih hw.2.2⟩

theorem wordIndex_lt (w : WordName) : wordIndex w < 5 := by cases w <;> decide

theorem wordIndex_inj {w x : WordName} (h : wordIndex w = wordIndex x) : w = x := by
  cases w <;> cases x <;> first | rfl | (simp [wordIndex] at h)

/-- Two words have one address only when they are the same word of the same slot (R1, R2). -/
theorem wordAddr_inj {i j : Nat} {w x : WordName} (h : wordAddr i w = wordAddr j x) : i = j ∧ w = x := by
  have hw := wordIndex_lt w
  have hx := wordIndex_lt x
  simp only [wordAddr] at h
  exact ⟨by omega, wordIndex_inj (by omega)⟩

namespace State

theorem word_putWord_of_ne (s : State) (i j : Nat) (w x : WordName) (y : Stored) (h : i ≠ j ∨ w ≠ x) :
    (s.putWord i w y).word j x = s.word j x := by
  apply storeRead_storeWrite_of_ne
  intro e
  obtain ⟨h1, h2⟩ := wordAddr_inj e
  exact h.elim (fun k => k h1) (fun k => k h2)

theorem word_putWord_self (s : State) (i : Nat) (w : WordName) (y : Stored) (h : Store.wf s.store = true) :
    (s.putWord i w y).word i w = y := storeRead_storeWrite_self _ _ _ h

theorem word_putWord (s : State) (i j : Nat) (w x : WordName) (y : Stored) (h : Store.wf s.store = true) :
    (s.putWord i w y).word j x = if i = j ∧ w = x then y else s.word j x := by
  split
  · next e => obtain ⟨rfl, rfl⟩ := e; exact word_putWord_self s i w y h
  · next e => exact word_putWord_of_ne s i j w x y (by rw [← not_and_or]; exact e)

theorem wf_putWord (s : State) (i : Nat) (w : WordName) (y : Stored) (h : Store.wf s.store = true) :
    Store.wf (s.putWord i w y).store = true := storeWrite_wf _ _ _ h

theorem word_writeWord (s : State) (i j : Nat) (w x : WordName) (v : Value) (h : Store.wf s.store = true) :
    (s.writeWord i w v).word j x = if i = j ∧ w = x then .clean v else s.word j x := word_putWord _ _ _ _ _ _ h

theorem wf_writeWord (s : State) (i : Nat) (w : WordName) (v : Value) (h : Store.wf s.store = true) :
    Store.wf (s.writeWord i w v).store = true := wf_putWord _ _ _ _ h

/-! ### Repairs (R6, R111) -/

/-- A repair changes the store alone. -/
theorem repairWord_store_only (s : State) (i : Nat) (w : WordName) :
    { s.repairWord i w with store := s.store } = s := by
  simp only [repairWord]; split <;> rfl

theorem wf_repairWord (s : State) (i : Nat) (w : WordName) (h : Store.wf s.store = true) :
    Store.wf (repairWord i s w).store = true := by
  simp only [repairWord]; split
  · exact wf_writeWord _ _ _ _ h
  · exact h

@[simp] theorem yield_repaired (x : Stored) : x.repaired.yield = x.yield := by cases x <;> rfl

theorem word_repairWord (s : State) (i j : Nat) (w x : WordName) (h : Store.wf s.store = true) :
    (repairWord i s w).word j x = if i = j ∧ w = x then (s.word j x).repaired else s.word j x := by
  simp only [repairWord]
  split
  · next v hv =>
    rw [word_writeWord _ _ _ _ _ _ h]
    split
    · next e => obtain ⟨rfl, rfl⟩ := e; simp [hv, Stored.repaired]
    · rfl
  · next hv =>
    split
    · next e => obtain ⟨rfl, rfl⟩ := e; revert hv; cases s.word i w <;> simp [Stored.repaired]
    · rfl

theorem wf_repairWords (s : State) (i : Nat) (ws : List WordName) (h : Store.wf s.store = true) :
    Store.wf (s.repairWords i ws).store = true := by
  induction ws generalizing s with
  | nil => exact h
  | cons w ws ih => exact ih _ (wf_repairWord _ _ _ h)

/-- Every word of the list is repaired, every other word left. -/
theorem word_repairWords (s : State) (i j : Nat) (ws : List WordName) (x : WordName) (h : Store.wf s.store = true) :
    (s.repairWords i ws).word j x = if i = j ∧ x ∈ ws then (s.word j x).repaired else s.word j x := by
  induction ws generalizing s with
  | nil => simp [repairWords]
  | cons w ws ih =>
    have := ih (repairWord i s w) (wf_repairWord _ _ _ h)
    simp only [repairWords, List.foldl_cons] at this ⊢
    rw [this, word_repairWord _ _ _ _ _ h]
    by_cases hij : i = j
    · subst hij
      by_cases hw : w = x
      · subst hw; by_cases hx : w ∈ ws <;> simp [hx] <;> cases s.word i w <;> rfl
      · have hw' : ¬ x = w := fun e => hw e.symm
        simp [hw, hw']
    · simp [hij]

end State

end Sys2Proof.Machine
end

