-- ==== Sys2Proof/Laws/Completions.lean ====
section
/-! SUPPORT. What the shared parts of a completion leave as it was (R6, R9, R10, R22): a repair changes the store alone,
the findings change the log and the ports alone. -/

namespace Sys2Proof.Machine.State

theorem repairWord_eq (s : State) (i : Nat) (w : WordName) : ∃ st, repairWord i s w = { s with store := st } := by
  unfold repairWord; split <;> exact ⟨_, rfl⟩

theorem repairWords_eq (s : State) (i : Nat) (ws : List WordName) : ∃ st, s.repairWords i ws = { s with store := st } := by
  induction ws generalizing s with
  | nil => exact ⟨_, rfl⟩
  | cons w ws ih =>
    obtain ⟨a, ha⟩ := repairWord_eq s i w
    obtain ⟨b, hb⟩ := ih (repairWord i s w)
    rw [ha] at hb
    exact ⟨b, by simpa [repairWords, ha] using hb⟩

theorem repairOnAccess_eq (s : State) (i : Nat) (ws : List WordName) :
    ∃ st, s.repairOnAccess i ws = { s with store := st } := by
  unfold repairOnAccess; split
  · exact repairWords_eq s i ws
  · exact ⟨_, rfl⟩

theorem takeFindings_eq (s : State) (fs : List Finding) :
    ∃ l p, s.takeFindings fs = { s with log := l, ports := p } := by
  induction fs generalizing s with
  | nil => exact ⟨_, _, rfl⟩
  | cons f fs ih => obtain ⟨l, p, h⟩ := ih (s.takeFinding f); exact ⟨l, p, h⟩

@[simp] theorem repairWord_banks (s : State) (i : Nat) (w : WordName) : (repairWord i s w).banks = s.banks := by
  obtain ⟨st, h⟩ := repairWord_eq s i w; rw [h]
@[simp] theorem repairWord_bank (s : State) (i : Nat) (w : WordName) (b : BankId) : (repairWord i s w).bank b = s.bank b := by
  obtain ⟨st, h⟩ := repairWord_eq s i w; rw [h]; rfl
@[simp] theorem repairWord_freeList (s : State) (i : Nat) (w : WordName) : (repairWord i s w).freeList = s.freeList := by
  obtain ⟨st, h⟩ := repairWord_eq s i w; rw [h]
@[simp] theorem repairWord_groups (s : State) (i : Nat) (w : WordName) : (repairWord i s w).groups = s.groups := by
  obtain ⟨st, h⟩ := repairWord_eq s i w; rw [h]
@[simp] theorem repairWord_group (s : State) (i : Nat) (w : WordName) (g : GroupId) : (repairWord i s w).group g = s.group g := by
  obtain ⟨st, h⟩ := repairWord_eq s i w; rw [h]; rfl
@[simp] theorem repairWord_loadQueue (s : State) (i : Nat) (w : WordName) : (repairWord i s w).loadQueue = s.loadQueue := by
  obtain ⟨st, h⟩ := repairWord_eq s i w; rw [h]
@[simp] theorem repairWord_engine (s : State) (i : Nat) (w : WordName) : (repairWord i s w).engine = s.engine := by
  obtain ⟨st, h⟩ := repairWord_eq s i w; rw [h]
@[simp] theorem repairWord_load (s : State) (i : Nat) (w : WordName) : (repairWord i s w).load = s.load := by
  obtain ⟨st, h⟩ := repairWord_eq s i w; rw [h]
@[simp] theorem repairWord_cycleNumber (s : State) (i : Nat) (w : WordName) : (repairWord i s w).cycleNumber = s.cycleNumber := by
  obtain ⟨st, h⟩ := repairWord_eq s i w; rw [h]
@[simp] theorem repairWord_cycleTimer (s : State) (i : Nat) (w : WordName) : (repairWord i s w).cycleTimer = s.cycleTimer := by
  obtain ⟨st, h⟩ := repairWord_eq s i w; rw [h]
@[simp] theorem repairWord_patrol (s : State) (i : Nat) (w : WordName) : (repairWord i s w).patrol = s.patrol := by
  obtain ⟨st, h⟩ := repairWord_eq s i w; rw [h]
@[simp] theorem repairWord_scrubTimer (s : State) (i : Nat) (w : WordName) : (repairWord i s w).scrubTimer = s.scrubTimer := by
  obtain ⟨st, h⟩ := repairWord_eq s i w; rw [h]
@[simp] theorem repairWord_log (s : State) (i : Nat) (w : WordName) : (repairWord i s w).log = s.log := by
  obtain ⟨st, h⟩ := repairWord_eq s i w; rw [h]
@[simp] theorem repairWord_dev (s : State) (i : Nat) (w : WordName) : (repairWord i s w).dev = s.dev := by
  obtain ⟨st, h⟩ := repairWord_eq s i w; rw [h]
@[simp] theorem repairWord_startCause (s : State) (i : Nat) (w : WordName) : (repairWord i s w).startCause = s.startCause := by
  obtain ⟨st, h⟩ := repairWord_eq s i w; rw [h]
@[simp] theorem repairWord_torn (s : State) (i : Nat) (w : WordName) : (repairWord i s w).torn = s.torn := by
  obtain ⟨st, h⟩ := repairWord_eq s i w; rw [h]
@[simp] theorem repairWord_resetLow (s : State) (i : Nat) (w : WordName) : (repairWord i s w).resetLow = s.resetLow := by
  obtain ⟨st, h⟩ := repairWord_eq s i w; rw [h]
@[simp] theorem repairWord_ports (s : State) (i : Nat) (w : WordName) : (repairWord i s w).ports = s.ports := by
  obtain ⟨st, h⟩ := repairWord_eq s i w; rw [h]
@[simp] theorem repairWord_port (s : State) (i : Nat) (w : WordName) (m : Port) : (repairWord i s w).port m = s.port m := by
  obtain ⟨st, h⟩ := repairWord_eq s i w; rw [h]; rfl
@[simp] theorem repairWord_arrivals (s : State) (i : Nat) (w : WordName) : (repairWord i s w).arrivals = s.arrivals := by
  obtain ⟨st, h⟩ := repairWord_eq s i w; rw [h]
@[simp] theorem repairWord_pending (s : State) (i : Nat) (w : WordName) : (repairWord i s w).pending = s.pending := by
  obtain ⟨st, h⟩ := repairWord_eq s i w; rw [h]

@[simp] theorem repairWords_banks (s : State) (i : Nat) (ws : List WordName) : (s.repairWords i ws).banks = s.banks := by
  obtain ⟨st, h⟩ := repairWords_eq s i ws; rw [h]
@[simp] theorem repairWords_bank (s : State) (i : Nat) (ws : List WordName) (b : BankId) : (s.repairWords i ws).bank b = s.bank b := by
  obtain ⟨st, h⟩ := repairWords_eq s i ws; rw [h]; rfl
@[simp] theorem repairWords_freeList (s : State) (i : Nat) (ws : List WordName) : (s.repairWords i ws).freeList = s.freeList := by
  obtain ⟨st, h⟩ := repairWords_eq s i ws; rw [h]
@[simp] theorem repairWords_groups (s : State) (i : Nat) (ws : List WordName) : (s.repairWords i ws).groups = s.groups := by
  obtain ⟨st, h⟩ := repairWords_eq s i ws; rw [h]
@[simp] theorem repairWords_group (s : State) (i : Nat) (ws : List WordName) (g : GroupId) : (s.repairWords i ws).group g = s.group g := by
  obtain ⟨st, h⟩ := repairWords_eq s i ws; rw [h]; rfl
@[simp] theorem repairWords_loadQueue (s : State) (i : Nat) (ws : List WordName) : (s.repairWords i ws).loadQueue = s.loadQueue := by
  obtain ⟨st, h⟩ := repairWords_eq s i ws; rw [h]
@[simp] theorem repairWords_engine (s : State) (i : Nat) (ws : List WordName) : (s.repairWords i ws).engine = s.engine := by
  obtain ⟨st, h⟩ := repairWords_eq s i ws; rw [h]
@[simp] theorem repairWords_load (s : State) (i : Nat) (ws : List WordName) : (s.repairWords i ws).load = s.load := by
  obtain ⟨st, h⟩ := repairWords_eq s i ws; rw [h]
@[simp] theorem repairWords_cycleNumber (s : State) (i : Nat) (ws : List WordName) : (s.repairWords i ws).cycleNumber = s.cycleNumber := by
  obtain ⟨st, h⟩ := repairWords_eq s i ws; rw [h]
@[simp] theorem repairWords_cycleTimer (s : State) (i : Nat) (ws : List WordName) : (s.repairWords i ws).cycleTimer = s.cycleTimer := by
  obtain ⟨st, h⟩ := repairWords_eq s i ws; rw [h]
@[simp] theorem repairWords_patrol (s : State) (i : Nat) (ws : List WordName) : (s.repairWords i ws).patrol = s.patrol := by
  obtain ⟨st, h⟩ := repairWords_eq s i ws; rw [h]
@[simp] theorem repairWords_scrubTimer (s : State) (i : Nat) (ws : List WordName) : (s.repairWords i ws).scrubTimer = s.scrubTimer := by
  obtain ⟨st, h⟩ := repairWords_eq s i ws; rw [h]
@[simp] theorem repairWords_log (s : State) (i : Nat) (ws : List WordName) : (s.repairWords i ws).log = s.log := by
  obtain ⟨st, h⟩ := repairWords_eq s i ws; rw [h]
@[simp] theorem repairWords_dev (s : State) (i : Nat) (ws : List WordName) : (s.repairWords i ws).dev = s.dev := by
  obtain ⟨st, h⟩ := repairWords_eq s i ws; rw [h]
@[simp] theorem repairWords_startCause (s : State) (i : Nat) (ws : List WordName) : (s.repairWords i ws).startCause = s.startCause := by
  obtain ⟨st, h⟩ := repairWords_eq s i ws; rw [h]
@[simp] theorem repairWords_torn (s : State) (i : Nat) (ws : List WordName) : (s.repairWords i ws).torn = s.torn := by
  obtain ⟨st, h⟩ := repairWords_eq s i ws; rw [h]
@[simp] theorem repairWords_resetLow (s : State) (i : Nat) (ws : List WordName) : (s.repairWords i ws).resetLow = s.resetLow := by
  obtain ⟨st, h⟩ := repairWords_eq s i ws; rw [h]
@[simp] theorem repairWords_ports (s : State) (i : Nat) (ws : List WordName) : (s.repairWords i ws).ports = s.ports := by
  obtain ⟨st, h⟩ := repairWords_eq s i ws; rw [h]
@[simp] theorem repairWords_port (s : State) (i : Nat) (ws : List WordName) (m : Port) : (s.repairWords i ws).port m = s.port m := by
  obtain ⟨st, h⟩ := repairWords_eq s i ws; rw [h]; rfl
@[simp] theorem repairWords_arrivals (s : State) (i : Nat) (ws : List WordName) : (s.repairWords i ws).arrivals = s.arrivals := by
  obtain ⟨st, h⟩ := repairWords_eq s i ws; rw [h]
@[simp] theorem repairWords_pending (s : State) (i : Nat) (ws : List WordName) : (s.repairWords i ws).pending = s.pending := by
  obtain ⟨st, h⟩ := repairWords_eq s i ws; rw [h]

@[simp] theorem repairOnAccess_banks (s : State) (i : Nat) (ws : List WordName) : (s.repairOnAccess i ws).banks = s.banks := by
  obtain ⟨st, h⟩ := repairOnAccess_eq s i ws; rw [h]
@[simp] theorem repairOnAccess_bank (s : State) (i : Nat) (ws : List WordName) (b : BankId) : (s.repairOnAccess i ws).bank b = s.bank b := by
  obtain ⟨st, h⟩ := repairOnAccess_eq s i ws; rw [h]; rfl
@[simp] theorem repairOnAccess_freeList (s : State) (i : Nat) (ws : List WordName) : (s.repairOnAccess i ws).freeList = s.freeList := by
  obtain ⟨st, h⟩ := repairOnAccess_eq s i ws; rw [h]
@[simp] theorem repairOnAccess_groups (s : State) (i : Nat) (ws : List WordName) : (s.repairOnAccess i ws).groups = s.groups := by
  obtain ⟨st, h⟩ := repairOnAccess_eq s i ws; rw [h]
@[simp] theorem repairOnAccess_group (s : State) (i : Nat) (ws : List WordName) (g : GroupId) : (s.repairOnAccess i ws).group g = s.group g := by
  obtain ⟨st, h⟩ := repairOnAccess_eq s i ws; rw [h]; rfl
@[simp] theorem repairOnAccess_loadQueue (s : State) (i : Nat) (ws : List WordName) : (s.repairOnAccess i ws).loadQueue = s.loadQueue := by
  obtain ⟨st, h⟩ := repairOnAccess_eq s i ws; rw [h]
@[simp] theorem repairOnAccess_engine (s : State) (i : Nat) (ws : List WordName) : (s.repairOnAccess i ws).engine = s.engine := by
  obtain ⟨st, h⟩ := repairOnAccess_eq s i ws; rw [h]
@[simp] theorem repairOnAccess_load (s : State) (i : Nat) (ws : List WordName) : (s.repairOnAccess i ws).load = s.load := by
  obtain ⟨st, h⟩ := repairOnAccess_eq s i ws; rw [h]
@[simp] theorem repairOnAccess_cycleNumber (s : State) (i : Nat) (ws : List WordName) : (s.repairOnAccess i ws).cycleNumber = s.cycleNumber := by
  obtain ⟨st, h⟩ := repairOnAccess_eq s i ws; rw [h]
@[simp] theorem repairOnAccess_cycleTimer (s : State) (i : Nat) (ws : List WordName) : (s.repairOnAccess i ws).cycleTimer = s.cycleTimer := by
  obtain ⟨st, h⟩ := repairOnAccess_eq s i ws; rw [h]
@[simp] theorem repairOnAccess_patrol (s : State) (i : Nat) (ws : List WordName) : (s.repairOnAccess i ws).patrol = s.patrol := by
  obtain ⟨st, h⟩ := repairOnAccess_eq s i ws; rw [h]
@[simp] theorem repairOnAccess_scrubTimer (s : State) (i : Nat) (ws : List WordName) : (s.repairOnAccess i ws).scrubTimer = s.scrubTimer := by
  obtain ⟨st, h⟩ := repairOnAccess_eq s i ws; rw [h]
@[simp] theorem repairOnAccess_log (s : State) (i : Nat) (ws : List WordName) : (s.repairOnAccess i ws).log = s.log := by
  obtain ⟨st, h⟩ := repairOnAccess_eq s i ws; rw [h]
@[simp] theorem repairOnAccess_dev (s : State) (i : Nat) (ws : List WordName) : (s.repairOnAccess i ws).dev = s.dev := by
  obtain ⟨st, h⟩ := repairOnAccess_eq s i ws; rw [h]
@[simp] theorem repairOnAccess_startCause (s : State) (i : Nat) (ws : List WordName) : (s.repairOnAccess i ws).startCause = s.startCause := by
  obtain ⟨st, h⟩ := repairOnAccess_eq s i ws; rw [h]
@[simp] theorem repairOnAccess_torn (s : State) (i : Nat) (ws : List WordName) : (s.repairOnAccess i ws).torn = s.torn := by
  obtain ⟨st, h⟩ := repairOnAccess_eq s i ws; rw [h]
@[simp] theorem repairOnAccess_resetLow (s : State) (i : Nat) (ws : List WordName) : (s.repairOnAccess i ws).resetLow = s.resetLow := by
  obtain ⟨st, h⟩ := repairOnAccess_eq s i ws; rw [h]
@[simp] theorem repairOnAccess_ports (s : State) (i : Nat) (ws : List WordName) : (s.repairOnAccess i ws).ports = s.ports := by
  obtain ⟨st, h⟩ := repairOnAccess_eq s i ws; rw [h]
@[simp] theorem repairOnAccess_port (s : State) (i : Nat) (ws : List WordName) (m : Port) : (s.repairOnAccess i ws).port m = s.port m := by
  obtain ⟨st, h⟩ := repairOnAccess_eq s i ws; rw [h]; rfl
@[simp] theorem repairOnAccess_arrivals (s : State) (i : Nat) (ws : List WordName) : (s.repairOnAccess i ws).arrivals = s.arrivals := by
  obtain ⟨st, h⟩ := repairOnAccess_eq s i ws; rw [h]
@[simp] theorem repairOnAccess_pending (s : State) (i : Nat) (ws : List WordName) : (s.repairOnAccess i ws).pending = s.pending := by
  obtain ⟨st, h⟩ := repairOnAccess_eq s i ws; rw [h]

@[simp] theorem takeFindings_store (s : State) (fs : List Finding) : (s.takeFindings fs).store = s.store := by
  obtain ⟨l, p, h⟩ := takeFindings_eq s fs; rw [h]
@[simp] theorem takeFindings_word (s : State) (fs : List Finding) (i : Nat) (x : WordName) : (s.takeFindings fs).word i x = s.word i x := by
  obtain ⟨l, p, h⟩ := takeFindings_eq s fs; rw [h]; rfl
@[simp] theorem takeFindings_banks (s : State) (fs : List Finding) : (s.takeFindings fs).banks = s.banks := by
  obtain ⟨l, p, h⟩ := takeFindings_eq s fs; rw [h]
@[simp] theorem takeFindings_bank (s : State) (fs : List Finding) (b : BankId) : (s.takeFindings fs).bank b = s.bank b := by
  obtain ⟨l, p, h⟩ := takeFindings_eq s fs; rw [h]; rfl
@[simp] theorem takeFindings_freeList (s : State) (fs : List Finding) : (s.takeFindings fs).freeList = s.freeList := by
  obtain ⟨l, p, h⟩ := takeFindings_eq s fs; rw [h]
@[simp] theorem takeFindings_groups (s : State) (fs : List Finding) : (s.takeFindings fs).groups = s.groups := by
  obtain ⟨l, p, h⟩ := takeFindings_eq s fs; rw [h]
@[simp] theorem takeFindings_group (s : State) (fs : List Finding) (g : GroupId) : (s.takeFindings fs).group g = s.group g := by
  obtain ⟨l, p, h⟩ := takeFindings_eq s fs; rw [h]; rfl
@[simp] theorem takeFindings_loadQueue (s : State) (fs : List Finding) : (s.takeFindings fs).loadQueue = s.loadQueue := by
  obtain ⟨l, p, h⟩ := takeFindings_eq s fs; rw [h]
@[simp] theorem takeFindings_engine (s : State) (fs : List Finding) : (s.takeFindings fs).engine = s.engine := by
  obtain ⟨l, p, h⟩ := takeFindings_eq s fs; rw [h]
@[simp] theorem takeFindings_load (s : State) (fs : List Finding) : (s.takeFindings fs).load = s.load := by
  obtain ⟨l, p, h⟩ := takeFindings_eq s fs; rw [h]
@[simp] theorem takeFindings_cycleNumber (s : State) (fs : List Finding) : (s.takeFindings fs).cycleNumber = s.cycleNumber := by
  obtain ⟨l, p, h⟩ := takeFindings_eq s fs; rw [h]
@[simp] theorem takeFindings_cycleTimer (s : State) (fs : List Finding) : (s.takeFindings fs).cycleTimer = s.cycleTimer := by
  obtain ⟨l, p, h⟩ := takeFindings_eq s fs; rw [h]
@[simp] theorem takeFindings_patrol (s : State) (fs : List Finding) : (s.takeFindings fs).patrol = s.patrol := by
  obtain ⟨l, p, h⟩ := takeFindings_eq s fs; rw [h]
@[simp] theorem takeFindings_scrubTimer (s : State) (fs : List Finding) : (s.takeFindings fs).scrubTimer = s.scrubTimer := by
  obtain ⟨l, p, h⟩ := takeFindings_eq s fs; rw [h]
@[simp] theorem takeFindings_dev (s : State) (fs : List Finding) : (s.takeFindings fs).dev = s.dev := by
  obtain ⟨l, p, h⟩ := takeFindings_eq s fs; rw [h]
@[simp] theorem takeFindings_startCause (s : State) (fs : List Finding) : (s.takeFindings fs).startCause = s.startCause := by
  obtain ⟨l, p, h⟩ := takeFindings_eq s fs; rw [h]
@[simp] theorem takeFindings_torn (s : State) (fs : List Finding) : (s.takeFindings fs).torn = s.torn := by
  obtain ⟨l, p, h⟩ := takeFindings_eq s fs; rw [h]
@[simp] theorem takeFindings_resetLow (s : State) (fs : List Finding) : (s.takeFindings fs).resetLow = s.resetLow := by
  obtain ⟨l, p, h⟩ := takeFindings_eq s fs; rw [h]
@[simp] theorem takeFindings_arrivals (s : State) (fs : List Finding) : (s.takeFindings fs).arrivals = s.arrivals := by
  obtain ⟨l, p, h⟩ := takeFindings_eq s fs; rw [h]
@[simp] theorem takeFindings_pending (s : State) (fs : List Finding) : (s.takeFindings fs).pending = s.pending := by
  obtain ⟨l, p, h⟩ := takeFindings_eq s fs; rw [h]

@[simp] theorem endCompletion_freeList (z s : State) (k : BankId) (src : Requester) (i : Nat) (ws : List WordName) : (z.endCompletion s k src i ws).freeList = s.freeList := by
  simp [endCompletion]
@[simp] theorem endCompletion_groups (z s : State) (k : BankId) (src : Requester) (i : Nat) (ws : List WordName) : (z.endCompletion s k src i ws).groups = s.groups := by
  simp [endCompletion]
@[simp] theorem endCompletion_group (z s : State) (k : BankId) (src : Requester) (i : Nat) (ws : List WordName) (g : GroupId) : (z.endCompletion s k src i ws).group g = s.group g := by
  simp [endCompletion]
@[simp] theorem endCompletion_loadQueue (z s : State) (k : BankId) (src : Requester) (i : Nat) (ws : List WordName) : (z.endCompletion s k src i ws).loadQueue = s.loadQueue := by
  simp [endCompletion]
@[simp] theorem endCompletion_engine (z s : State) (k : BankId) (src : Requester) (i : Nat) (ws : List WordName) : (z.endCompletion s k src i ws).engine = s.engine := by
  simp [endCompletion]
@[simp] theorem endCompletion_load (z s : State) (k : BankId) (src : Requester) (i : Nat) (ws : List WordName) : (z.endCompletion s k src i ws).load = s.load := by
  simp [endCompletion]
@[simp] theorem endCompletion_cycleNumber (z s : State) (k : BankId) (src : Requester) (i : Nat) (ws : List WordName) : (z.endCompletion s k src i ws).cycleNumber = s.cycleNumber := by
  simp [endCompletion]
@[simp] theorem endCompletion_cycleTimer (z s : State) (k : BankId) (src : Requester) (i : Nat) (ws : List WordName) : (z.endCompletion s k src i ws).cycleTimer = s.cycleTimer := by
  simp [endCompletion]
@[simp] theorem endCompletion_patrol (z s : State) (k : BankId) (src : Requester) (i : Nat) (ws : List WordName) : (z.endCompletion s k src i ws).patrol = s.patrol := by
  simp [endCompletion]
@[simp] theorem endCompletion_scrubTimer (z s : State) (k : BankId) (src : Requester) (i : Nat) (ws : List WordName) : (z.endCompletion s k src i ws).scrubTimer = s.scrubTimer := by
  simp [endCompletion]
@[simp] theorem endCompletion_dev (z s : State) (k : BankId) (src : Requester) (i : Nat) (ws : List WordName) : (z.endCompletion s k src i ws).dev = s.dev := by
  simp [endCompletion]
@[simp] theorem endCompletion_startCause (z s : State) (k : BankId) (src : Requester) (i : Nat) (ws : List WordName) : (z.endCompletion s k src i ws).startCause = s.startCause := by
  simp [endCompletion]
@[simp] theorem endCompletion_torn (z s : State) (k : BankId) (src : Requester) (i : Nat) (ws : List WordName) : (z.endCompletion s k src i ws).torn = s.torn := by
  simp [endCompletion]
@[simp] theorem endCompletion_resetLow (z s : State) (k : BankId) (src : Requester) (i : Nat) (ws : List WordName) : (z.endCompletion s k src i ws).resetLow = s.resetLow := by
  simp [endCompletion]
@[simp] theorem endCompletion_arrivals (z s : State) (k : BankId) (src : Requester) (i : Nat) (ws : List WordName) : (z.endCompletion s k src i ws).arrivals = s.arrivals := by
  simp [endCompletion]
@[simp] theorem endCompletion_pending (z s : State) (k : BankId) (src : Requester) (i : Nat) (ws : List WordName) : (z.endCompletion s k src i ws).pending = s.pending := by
  simp [endCompletion]

/-- Findings change the sticky flags of a port alone (R118). -/
theorem port_takeFindings (s : State) (fs : List Finding) (n : Port) :
    ∃ m, (s.takeFindings fs).port n = { s.port n with sticky := m } := by
  induction fs generalizing s with
  | nil => exact ⟨_, rfl⟩
  | cons f fs ih =>
    obtain ⟨m, h⟩ := ih (s.takeFinding f)
    refine ⟨m, ?_⟩
    have : (s.takeFinding f).port n = (s.port n).raise (if f.correction then .eccCorrected else .eccUncorrectable) := by
      simp only [takeFinding]; exact port_raiseAll _ _ _
    rw [this] at h
    exact h

/-- The shared end of a completion changes the sticky flags of a port alone. -/
theorem port_endCompletion (z s : State) (k : BankId) (src : Requester) (i : Nat) (ws : List WordName) (n : Port) :
    ∃ m, (z.endCompletion s k src i ws).port n = { s.port n with sticky := m } := by
  obtain ⟨m, h⟩ := port_takeFindings (s.repairOnAccess i ws) (z.findings src i ws) n
  exact ⟨m, by simpa [endCompletion] using h⟩

end Sys2Proof.Machine.State
end

