-- ==== Sys2Proof/Laws/Frames.lean ====
section
/-! SUPPORT. What a decoded request has in its fields (R141 step 3). -/

namespace Sys2Proof.Machine

theorem decodeRun_replicate_wf (shape : RecordShape) (hs : shape = .read ∨ shape = .stamped) (k : Nat) (h1 : 1 ≤ k)
    (h2 : k ≤ 16) (p : Bool) : runWf shape (List.replicate k (.read p)) = true := by
  obtain ⟨k, rfl⟩ : ∃ j, k = j + 1 := ⟨k - 1, by omega⟩
  have : (List.replicate k (PointAccess.read p)).all (fun a => a == .read p) = true := by
    simp
  rcases hs with rfl | rfl <;> simp [runWf, List.replicate_succ, h2]

theorem writeAccesses_wf (stage masked : Bool) (vs : List Value) (k : Nat) (hk : 1 ≤ k) (hk' : k ≤ 16)
    (hl : vs.length = (if masked then 1 else 0) + k) : runWf .status (writeAccesses stage masked vs) = true := by
  have key : ∀ (mask : Option Value) (ws : List Value), ws.length = k →
      runWf .status (ws.map (fun v => if stage then PointAccess.stage v mask else PointAccess.post v mask)) = true := by
    intro mask ws hws
    cases ws with
    | nil => simp at hws; omega
    | cons w ws =>
      have h16 : ws.length + 1 ≤ 16 := by simp at hws; omega
      cases stage <;> simp [runWf, h16]
  cases masked with
  | false => simpa [writeAccesses] using key none vs (by simpa using hl)
  | true =>
    cases vs with
    | nil => simp at hl; omega
    | cons m rest => simpa [writeAccesses] using key (some m) rest (by simp at hl; omega)

theorem values32_length (bs : List Byte) : (values32 bs).length = bs.length / 4 := by
  induction bs using values32.induct with
  | case1 a b c d t ih => simp [values32, ih]; omega
  | case2 bs h =>
    match bs, h with
    | [], _ => simp [values32]
    | [_], _ => simp [values32]
    | [_, _], _ => simp [values32]
    | [_, _, _], _ => simp [values32]
    | a :: b :: c :: d :: t, h => exact absurd rfl (h a b c d t)

theorem decodeControl_count {c : Byte} {k : RunControl} (h : decodeControl c = some k) : 1 ≤ k.count ∧ k.count ≤ 16 := by
  unfold decodeControl at h
  split at h
  · cases h
  · cases h
    have := (c.extractLsb' 0 4).isLt
    dsimp only
    omega

theorem decodeReadRun_wf (shape : RecordShape) (hs : shape = .read ∨ shape = .stamped) {ps : List Byte} {r : Request}
    (h : decodeReadRun shape ps = some r) : r.wf = true := by
  unfold decodeReadRun at h
  split at h
  · split at h
    · cases h
    · next k hk =>
      split at h
      · cases h
      · cases h
        obtain ⟨h1, h2⟩ := decodeControl_count hk
        exact decodeRun_replicate_wf shape hs _ h1 h2 _
  · cases h

theorem decodeWriteRun_wf (stage : Bool) {ps : List Byte} {r : Request} (h : decodeWriteRun stage ps = some r) :
    r.wf = true := by
  unfold decodeWriteRun at h
  split at h
  · next rest =>
    split at h
    · cases h
    · next k hk =>
      split at h
      · cases h
      · by_cases hl : rest.length = (if k.masked then 4 else 0) + 4 * k.count
        · rw [if_neg (not_not_intro hl)] at h
          cases h
          obtain ⟨h1, h2⟩ := decodeControl_count hk
          refine writeAccesses_wf stage _ _ k.count h1 h2 ?_
          rw [values32_length]
          cases hm : k.masked <;> simp [hm] at hl ⊢ <;> omega
        · rw [if_pos hl] at h
          cases h
  · cases h

theorem decodeClear_wf {ps : List Byte} {r : Request} (h : decodeClear ps = some r) : r.wf = true := by
  unfold decodeClear at h
  split at h
  · split at h
    · next hc =>
      cases h
      have h2 := hc.2.2.1
      have h4 := hc.2.2.2
      simp only [Request.wf, BitVec.getLsbD_extractLsb']
      rw [h2, h4]
      rfl
    · cases h
  · cases h

theorem decodeArm_wf {ps : List Byte} {r : Request} (h : decodeArm ps = some r) : r.wf = true := by
  unfold decodeArm at h
  split at h
  · split at h
    · cases h
    · split at h
      · cases h; rfl
      · split at h
        · cases h; rfl
        · cases h
  · cases h

theorem decodeGroupWrite_wf {ps : List Byte} {r : Request} (h : decodeGroupWrite ps = some r) : r.wf = true := by
  unfold decodeGroupWrite at h
  split at h
  · split at h
    · cases h
    · split at h
      · cases h
      · split at h
        · cases h; rfl
        · split at h
          · cases h; rfl
          · cases h
  · cases h

theorem pointOf_le {hi lo : Byte} {p : Nat} (h : pointOf hi lo = some p) : p ≤ 3839 := by
  unfold pointOf at h
  split at h
  · next hp => cases h; exact hp
  · cases h

theorem decodeDescRead_wf {ps : List Byte} {r : Request} (h : decodeDescRead ps = some r) : r.wf = true := by
  unfold decodeDescRead at h
  split at h
  · obtain ⟨p, hp, rfl⟩ := Option.map_eq_some_iff.1 h
    simpa [Request.wf] using pointOf_le hp
  · cases h

theorem decodeDescWrite_wf {ps : List Byte} {r : Request} (h : decodeDescWrite ps = some r) : r.wf = true := by
  unfold decodeDescWrite at h
  split at h
  · split at h
    · next hp hd => cases h; simp [Request.wf, pointOf_le hp, hd]
    · cases h
  · cases h

theorem pageOf_le {b : Byte} {l : Nat} (h : pageOf b = some l) : l ≤ 63 := by
  unfold pageOf at h
  split at h
  · next hp => cases h; exact hp
  · cases h

theorem decodeMapRead_wf {ps : List Byte} {r : Request} (h : decodeMapRead ps = some r) : r.wf = true := by
  unfold decodeMapRead at h
  split at h
  · split at h
    · next hl => cases h; simpa [Request.wf] using pageOf_le hl
    · cases h
  · cases h

theorem decodeMapWrite_wf {ps : List Byte} {r : Request} (h : decodeMapWrite ps = some r) : r.wf = true := by
  unfold decodeMapWrite at h
  split at h
  · split at h
    · next hl =>
      split at h
      · cases h
      · next hc =>
        cases h
        simp only [Request.wf, normalEntry]
        have := pageOf_le hl
        split
        · next hp => simp_all
        · next hp => simp [this, entryPresent]
    · cases h
  · cases h

theorem portOf_device {i : Item} {b : Byte} {m : Port} (h : i.portOf b = some m) : (i.kind != .device || m == 0) = true := by
  unfold Item.portOf at h
  cases hk : i.kind <;> simp [hk] at h ⊢
  exact h.2.symm

theorem decodeSettingRead_wf {ps : List Byte} {r : Request} (h : decodeSettingRead ps = some r) : r.wf = true := by
  unfold decodeSettingRead at h
  split at h
  · split at h
    · cases h
    · obtain ⟨m, hm, rfl⟩ := Option.map_eq_some_iff.1 h
      exact portOf_device hm
  · cases h

theorem valueOf_fold (bs : List Byte) (k : Nat) (acc : BitVec 64) (h : acc.toNat < 2 ^ (8 * k)) (hk : k + bs.length ≤ 8) :
    (bs.foldl (fun (acc : BitVec 64) b => (acc <<< 8) ||| b.setWidth 64) acc).toNat < 2 ^ (8 * (k + bs.length)) := by
  induction bs generalizing k acc with
  | nil => simpa using h
  | cons b bs ih =>
    have e : k + (b :: bs).length = (k + 1) + bs.length := by simp; omega
    rw [e]
    rw [e] at hk
    refine ih (k + 1) _ ?_ hk
    have hb : (b.setWidth 64).toNat < 2 ^ (8 * (k + 1)) := by
      refine Nat.lt_of_lt_of_le (m := 2 ^ 8) ?_ (Nat.pow_le_pow_right (by omega) (by omega))
      have := b.isLt
      simp only [BitVec.toNat_setWidth]
      omega
    have ha : (acc <<< 8).toNat < 2 ^ (8 * (k + 1)) := by
      have hs : 2 ^ (8 * (k + 1)) = 2 ^ (8 * k) * 2 ^ 8 := by rw [← Nat.pow_add]; congr 1
      rw [hs, BitVec.toNat_shiftLeft, Nat.shiftLeft_eq]
      exact Nat.lt_of_le_of_lt (Nat.mod_le _ _) (Nat.mul_lt_mul_of_pos_right h (by decide))
    rw [BitVec.toNat_or]
    exact Nat.or_lt_two_pow ha hb

theorem valueOf_lt (bs : List Byte) (h : bs.length ≤ 8) : (valueOf bs).toNat < 2 ^ (8 * bs.length) := by
  have := valueOf_fold bs 0 0 (by decide) (by omega)
  simpa [valueOf] using this

theorem Item.len_le (i : Item) : i.len ≤ 8 := by cases i <;> simp [Item.len]

theorem Item.len_le_writeLen (i : Item) : i.len ≤ i.writeLen := by cases i <;> simp [Item.writeLen, Item.len]

theorem Item.writeLen_of_ne {i : Item} (h : i ≠ .crcEnforcement) : i.writeLen = i.len := by
  cases i <;> first | rfl | exact absurd rfl h

theorem decodeSettingWrite_wf {ps : List Byte} {r : Request} (h : decodeSettingWrite ps = some r) : r.wf = true := by
  unfold decodeSettingWrite at h
  split at h
  · next c p bs =>
    split at h
    · cases h
    · next i hi =>
      split at h
      · cases h
      · next m hm =>
        split at h
        · cases h
        · next hl =>
          split at h
          · cases h
          · next hr =>
            cases h
            have hlen : bs.length = i.writeLen := by simpa using hl
            have h1 := portOf_device hm
            have h2 := valueOf_lt (bs.take i.len) (by simp; exact .inl i.len_le)
            have h3 : (bs.take i.len).length = i.len := by
              have := i.len_le_writeLen
              simp; omega
            rw [h3] at h2
            have h4 : (bs.drop i.len == (if i = .crcEnforcement then (bs.take 1).map (fun b => ~~~b) else [])
                || i == .crcEnforcement) = true := by
              by_cases hc : i = .crcEnforcement
              · simp [hc]
              · have : bs.drop i.len = [] := by
                  rw [Item.writeLen_of_ne hc] at hlen
                  simp [hlen]
                simp [hc, this]
            simp only [Request.wf, Bool.and_eq_true]
            exact ⟨⟨⟨h1, by simpa using hr⟩, by simpa using h2⟩, h4⟩
  · cases h

theorem decodeReset_wf {ps : List Byte} {r : Request} (h : decodeReset ps = some r) : r.wf = true := by
  unfold decodeReset at h
  split at h
  · obtain ⟨x, _, rfl⟩ := Option.map_eq_some_iff.1 h
    rfl
  · cases h

theorem decodeGroup_wf (mk : GroupId → Request) (hmk : ∀ g, (mk g).wf = true) {ps : List Byte} {r : Request}
    (h : decodeGroup mk ps = some r) : r.wf = true := by
  unfold decodeGroup at h
  split at h
  · obtain ⟨x, _, rfl⟩ := Option.map_eq_some_iff.1 h
    exact hmk x
  · cases h

theorem decodeFlush_wf {ps : List Byte} {r : Request} (h : decodeFlush ps = some r) : r.wf = true := by
  unfold decodeFlush at h
  split at h
  · obtain ⟨x, _, rfl⟩ := Option.map_eq_some_iff.1 h
    rfl
  · cases h

theorem noParams_wf {q : Request} (hq : q.wf = true) {ps : List Byte} {r : Request} (h : noParams q ps = some r) :
    r.wf = true := by
  cases ps with
  | nil => cases h; exact hq
  | cons => cases h

theorem ite_some {α : Type} {c : Prop} [Decidable c] {a x : α} {b : Option α} (h : (if c then some a else b) = some x) :
    a = x ∨ b = some x := by
  by_cases hc : c
  · rw [if_pos hc] at h; cases h; exact .inl rfl
  · rw [if_neg hc] at h; exact .inr h

/-- A frame that passes steps 2 and 3 of R141 gives a request whose fields lie in their ranges. -/
theorem decode_wf {op : Byte} {dec : List Byte → Option Request} (ho : requestDecoder op = some dec) {ps : List Byte}
    {r : Request} (h : dec ps = some r) : r.wf = true := by
  unfold requestDecoder at ho
  rcases ite_some ho with rfl | ho
  · exact noParams_wf rfl h
  rcases ite_some ho with rfl | ho
  · exact noParams_wf rfl h
  rcases ite_some ho with rfl | ho
  · exact decodeClear_wf h
  rcases ite_some ho with rfl | ho
  · exact noParams_wf rfl h
  rcases ite_some ho with rfl | ho
  · exact decodeReadRun_wf _ (.inl rfl) h
  rcases ite_some ho with rfl | ho
  · exact decodeReadRun_wf _ (.inr rfl) h
  rcases ite_some ho with rfl | ho
  · exact decodeWriteRun_wf _ h
  rcases ite_some ho with rfl | ho
  · exact decodeWriteRun_wf _ h
  rcases ite_some ho with rfl | ho
  · exact decodeArm_wf h
  rcases ite_some ho with rfl | ho
  · exact decodeGroup_wf _ (fun _ => rfl) h
  rcases ite_some ho with rfl | ho
  · exact decodeGroup_wf _ (fun _ => rfl) h
  rcases ite_some ho with rfl | ho
  · exact noParams_wf rfl h
  rcases ite_some ho with rfl | ho
  · exact decodeDescRead_wf h
  rcases ite_some ho with rfl | ho
  · exact decodeDescWrite_wf h
  rcases ite_some ho with rfl | ho
  · exact decodeGroupWrite_wf h
  rcases ite_some ho with rfl | ho
  · exact decodeMapRead_wf h
  rcases ite_some ho with rfl | ho
  · exact decodeMapWrite_wf h
  rcases ite_some ho with rfl | ho
  · exact decodeFlush_wf h
  rcases ite_some ho with rfl | ho
  · exact decodeSettingRead_wf h
  rcases ite_some ho with rfl | ho
  · exact decodeSettingWrite_wf h
  rcases ite_some ho with rfl | ho
  · exact noParams_wf rfl h
  rcases ite_some ho with rfl | ho
  · exact noParams_wf rfl h
  rcases ite_some ho with rfl | ho
  · exact decodeReset_wf h
  · cases ho

end Sys2Proof.Machine
end

