-- ==== Sys2Proof/Laws/Moves.lean ====
section
/-! SUPPORT. What a step can do, said once: every command that answers a next state is a chain of the moves below, each with
the conditions under which the part makes it. An invariant is kept by every step when every move keeps it. -/

namespace Sys2Proof.Machine

/-- A change of the translation cache other than an insertion (R53). -/
inductive CacheMove (p : PortState) : List CacheEntry → Prop
  | touch (l : Nat) : CacheMove p (p.touch l).cache
  | remove (l : Nat) : CacheMove p (cacheWithout l p.cache)
  | flush : CacheMove p []

/-- A change of one port. -/
inductive PortMove (s : State) (n : Port) : PortState → Prop
  /-- The receiver, the assembler with its gap timer, and the link error flags (R122 to R126, R134). -/
  | link (rx : Receiver) (a : Assembler) (gap : Option Nat) (errs : BitVec 6)
      (hs : (s.port n).asm.sound → a.sound)
      (hg : ((s.port n).asm = .hunt → (s.port n).gapTimer = none) → a = .hunt → gap = none) :
      PortMove s n { s.port n with rx := rx, asm := a, gapTimer := gap, linkErrors := errs }
  /-- A frame joins the queue (R129). -/
  | enqueue (f : List Byte) (hq : (s.port n).queue.length ≤ 3) (hf : (s.port n).asm.sound → 2 ≤ f.length ∧ f.length ≤ 80)
      (a : Assembler) (gap : Option Nat) (ha : a = .hunt) (hg : gap = none) :
      PortMove s n { s.port n with rx := .looking, asm := a, gapTimer := gap, queue := (s.port n).queue ++ [f] }
  /-- The head leaves the queue (R139). -/
  | dequeue (f : List Byte) (rest : List (List Byte)) (hq : (s.port n).queue = f :: rest) :
      PortMove s n { s.port n with queue := rest }
  /-- The response buffers (R131, R132). -/
  | buffers (x y : Buffer) : PortMove s n { s.port n with buf0 := x, buf1 := y }
  /-- The command engine; it begins to hold on a LOADING group alone (R102). -/
  | engine (e : Engine) (h : ∀ k, e = .holding k →
      (s.group k.group).state = .loading ∨ ∃ k', (s.port n).ce = .holding k' ∧ k.group = k'.group) :
      PortMove s n { s.port n with ce := e }
  /-- The cache (R53). -/
  | cache (c : List CacheEntry) (h : CacheMove (s.port n) c) : PortMove s n { s.port n with cache := c }
  /-- Flags cleared, the loaded set emptied or kept (R150). -/
  | clear (errs : BitVec 6) (mask : BitVec 11) (keep : Bool) :
      PortMove s n { s.port n with
        linkErrors := errs, sticky := (s.port n).sticky &&& mask, loaded := if keep then (s.port n).loaded else 0 }

/-- A kind with a flag of its own (R158). -/
def EventKind.isSticky : EventKind → Bool
  | .linkError => false
  | .groupLoaded => false
  | _ => true

/-- An operation that a requester may place: a descriptor or map write has passed its checks, a point write goes where a
cached entry leads, a fill or map write names its map slot (R45, R51, R55, R59). -/
def BankOp.placed (s : State) (op : BankOp) : Prop :=
  match op.act with
  | .descWrite desc low high => op.slot ≤ 3839 ∧ ∃ d, decodeDesc desc = some d ∧ limitsCrossed d.policy low high = false
  | .mapWrite t l e => op.slot = mapSlot t l ∧ l < 64 ∧ (entryPresent e = true → (e.extractLsb' 0 8).toNat < 240)
  | .mapFill l _ => ∃ n, op.who = .ce n ∧ op.slot = mapSlot n l ∧ l < (s.port n).cfg.viewSize.toNat
  | .stage _ _ => ∃ n, ∃ e ∈ (s.port n).cache, ∃ p, op.slot = slotIn e.page p
  | .post _ _ => ∃ n, ∃ e ∈ (s.port n).cache, ∃ p, op.slot = slotIn e.page p
  | .transfer => ∃ g, ∃ e ∈ (s.group g).list, op.slot = e.point
  | _ => True

/-- The moves that change no word of the store and insert nothing into a cache. -/
inductive Quiet : State → State → Prop
  | port (s : State) (n : Port) (p : PortState) (h : PortMove s n p) : Quiet s (s.setPort n p)
  | raise (s : State) (n : Port) (k : EventKind) (h : k.isSticky = true) : Quiet s (s.raise n k)
  | raiseAll (s : State) (k : EventKind) (h : k.isSticky = true) : Quiet s (s.raiseAll k)
  | setting (s : State) (i : Item) (m : Port) (v : BitVec 64) (h : i.inRange v = true)
      (hl : v.toNat < 2 ^ (8 * i.len)) : Quiet s (s.writeItem i m v)
  | portReset (s : State) (n : Port) : Quiet s (s.portReset n)
  | warmReset (s : State) : Quiet s s.warmReset
  | place (s : State) (op : BankOp) (h : op.placed s) : Quiet s (s.place op)
  | release (s : State) (r : Requester) : Quiet s (s.release r)
  | grantNext (s : State) (b : BankId) (h : (s.bank b).phase ≠ .init) : Quiet s (s.grantNext b)
  | fillNext (s : State) (b : BankId) (hi : (s.bank b).phase = .init) (h : (s.bank b).fillRow < 1023) :
      Quiet s (s.updBank b (fun x => { x with fillRow := (s.bank b).fillRow + 1 }))
  | fillLast (s : State) (b : BankId) (hi : (s.bank b).phase = .init) (h : ¬ (s.bank b).fillRow < 1023) :
      Quiet s ((s.updBank b (fun x => { x with fillRow := (s.bank b).fillRow + 1 })).grantNext b)
  | finding (s : State) (f : Finding) : Quiet s (s.takeFinding f)
  | restage (s : State) (n : Port) (p : Nat) : Quiet s (s.restage n p)
  | newStage (s : State) (n : Port) (p : Nat) (g : GroupId) (h : s.admission p g = .newStage)
      (hp : ∃ b v m d, (s.bank b).phase = .busy ⟨.ce n, p, .stage v m, d⟩) : Quiet s (s.newStage n p g)
  | discard (s : State) (g : GroupId) (h : (s.group g).state ≠ .loading) (h' : (s.group g).state ≠ .empty) :
      Quiet s (s.discard g)
  | removeStage (s : State) (p : Nat) (g : GroupId) (e : StageEntry) (hm : s.markOf p = some (g, e))
      (h : (s.group g).state ≠ .loading) : Quiet s (s.removeStage g e)
  | arm (s : State) (g : GroupId) (h : (s.group g).state = .staging) (hm : (s.group g).mode = .manual) :
      Quiet s (s.updGroup g (fun r => { r with state := .armed }))
  | queueAndStart (s : State) (g : GroupId) (h : (s.group g).state = .staging ∨ (s.group g).state = .armed) :
      Quiet s (s.enqueueGroup g).startLoad.1
  | cycle (s : State) : Quiet s s.countCycle.queueDue.startLoad.1
  | groupWrite (s : State) (g : GroupId) (mode : GroupMode) (arms : BitVec 4) (h : (s.group g).state = .empty) :
      Quiet s (s.updGroup g (fun r => { r with mode := mode, armSet := arms }))
  | transferred (s : State) (p : Nat) (skip : Bool) : Quiet s (s.transferred p skip).1
  | timers (s : State) (c t : Option Nat) : Quiet s { s with cycleTimer := c, scrubTimer := t }
  | patrol (s : State) (k : Nat) (h : k ≤ 4095) : Quiet s { s with patrol := k }
  | logUpdate (s : State) (u : Option LogEntry) : Quiet s { s with log := { s.log with uncorrectable := u, updated := false } }
  | arrivals (s : State) (k : Nat) : Quiet s { s with arrivals := k }

/-- A chain of quiet moves. -/
abbrev Quiets : State → State → Prop := Relation.ReflTransGen Quiet

/-- Bank b carries this operation. -/
def State.carries (s : State) (b : BankId) (op : BankOp) : Prop := (s.bank b).phase = .busy op

/-- The moves of a step. -/
inductive Move : State → State → Prop
  | quiet {s t : State} (h : Quiet s t) : Move s t
  | disturb (s : State) (i : Nat) (w : WordName) : Move s (s.putWord i w (s.word i w).disturbed)
  | repair (s : State) (i : Nat) (w : WordName) : Move s (s.repairWord i w)
  | writeStaged (s : State) (i : Nat) (v : Value) : Move s (s.writeWord i .staged v)
  | writeLive (s : State) (b : BankId) (op : BankOp) (v : Value) (h : s.carries b op)
      (ha : op.act = .transfer ∨ ∃ v m, op.act = .post v m) : Move s (s.writeWord op.slot .live v)
  | writeRecord (s : State) (b : BankId) (op : BankOp) (desc low high : Value) (h : s.carries b op)
      (ha : op.act = .descWrite desc low high) : Move s (s.writeRecord op.slot desc low high)
  | writeMap (s : State) (b : BankId) (op : BankOp) (t : Port) (l : Nat) (e : Value) (h : s.carries b op)
      (ha : op.act = .mapWrite t l e) :
      Move s ((s.writeWord op.slot .live e).updPort t (PortState.invalidate l))
  | fillSlot (s : State) (b : BankId) (i : Nat) (h : (s.bank b).phase = .init) : Move s (s.fillSlot i)
  | insert (s : State) (n : Port) (e : CacheEntry) (h : e.logical < (s.port n).cfg.viewSize.toNat) :
      Move s (s.updPort n (PortState.insertEntry e))
  | placeTranslated (s : State) (op : BankOp) (h : (∃ p, op.act = .read p) ∨ (∃ v m, op.act = .stage v m) ∨
      ∃ v m, op.act = .post v m) : Move s (s.place op)
  | stop (s : State) : Move s s.stopPart
  | cold (s : State) (roles : BitVec 4) : Move s (s.coldReset roles)

/-- A chain of moves. -/
abbrev Moves : State → State → Prop := Relation.ReflTransGen Move

end Sys2Proof.Machine
end

