-- ==== Sys2Proof/Laws/Walk.lean ====
section
/-! SUPPORT. Every command that answers a next state is a chain of moves (Laws/Moves.lean). -/

namespace Sys2Proof.Machine

theorem Quiets.of {s t : State} (h : Quiet s t) : Quiets s t := Relation.ReflTransGen.single h

theorem Quiets.port {s : State} (n : Port) {p : PortState} (h : PortMove s n p) : Quiets s (s.setPort n p) :=
  .of (.port s n p h)

/-- Two changes of one port, one after the other. -/
theorem Quiets.port_port {s : State} {n : Port} {p q : PortState} (h : Quiets s (s.setPort n p))
    (h' : PortMove (s.setPort n p) n q) : Quiets s (s.setPort n q) := by
  have := h.trans (Quiets.port n h')
  rwa [State.setPort_setPort] at this

/-! ## Responses and engines -/

theorem PortState.startTransmitter_buffers (p : PortState) :
    ∃ x y, p.startTransmitter = { p with buf0 := x, buf1 := y } := by
  unfold startTransmitter
  split
  · split
    · next k r _ => cases k <;> exact ⟨_, _, rfl⟩
    · exact ⟨_, _, rfl⟩
  · exact ⟨_, _, rfl⟩

theorem PortState.setBuf_buffers (p : PortState) (k : BufId) (x : Buffer) :
    ∃ a b, p.setBuf k x = { p with buf0 := a, buf1 := b } := by
  cases k <;> exact ⟨_, _, rfl⟩

theorem engine_idle_move (s : State) (n : Port) : PortMove s n { s.port n with ce := .idle } :=
  .engine .idle (fun _ h => by cases h)

theorem setEngine_quiets (s : State) (n : Port) (e : Engine) (h : ∀ k, e = .holding k →
      (s.group k.group).state = .loading ∨ ∃ k', (s.port n).ce = .holding k' ∧ k.group = k'.group) :
    Quiets s (s.setEngine n e) := .port n (.engine e h)

theorem setEngine_quiets_of_ne (s : State) (n : Port) (e : Engine) (h : ∀ k, e ≠ .holding k) :
    Quiets s (s.setEngine n e) := setEngine_quiets s n e (fun k hk => absurd hk (h k))

/-- Completing a response changes port n's buffers and engine alone. -/
theorem respond_quiets (s : State) (n : Port) (tag : Byte) (st : FrameStatus) (body : List Byte) :
    Quiets s (s.respond n tag st body) := by
  unfold State.respond
  split
  · exact setEngine_quiets_of_ne s n _ (fun k h => by cases h)
  · next k _ =>
    generalize ({ tag := tag, status := frameCode st, summary := s.summaryByte n, body := body } : Response) = r
    obtain ⟨a, b, h1⟩ := (s.port n).setBuf_buffers k (.filled r)
    obtain ⟨x, y, h2⟩ := PortState.startTransmitter_buffers { s.port n with buf0 := a, buf1 := b, ce := .idle }
    have key : Quiets s (s.setPort n { s.port n with buf0 := x, buf1 := y, ce := .idle }) := by
      refine Quiets.port_port (p := { s.port n with buf0 := x, buf1 := y }) (.port n (.buffers x y)) ?_
      have := engine_idle_move (s.setPort n { s.port n with buf0 := x, buf1 := y }) n
      rwa [State.port_setPort_self] at this
    have e : s.updPort n (fun p => ({ p.setBuf k (.filled r) with ce := .idle }).startTransmitter)
        = s.setPort n { s.port n with buf0 := x, buf1 := y, ce := .idle } := by
      simp only [State.updPort]
      rw [h1, h2]
    rw [e]
    exact key

theorem updPort_cache_quiets (s : State) (n : Port) (l : Nat) :
    Quiets s (s.updPort n (PortState.touch l)) := by
  have h : (s.port n).touch l = { s.port n with cache := ((s.port n).touch l).cache } := by
    unfold PortState.touch; split <;> rfl
  unfold State.updPort
  rw [h]
  exact .port n (.cache _ (.touch l))

theorem place_quiets (s : State) (op : BankOp) (h : op.placed s) : Quiets s (s.place op) := .of (.place s op h)

theorem mem_cache_touch {p : PortState} {l : Nat} {e : CacheEntry} (h : p.lookup l = some e) :
    e ∈ (p.touch l).cache := by
  simp [PortState.touch, h]

/-- Going on with a run from points that are not yet translated (R51, R145). -/
theorem advance_quiets (n : Port) (todo : List PointAccess) (r : PointRun) (s : State) :
    Quiets s (State.advance n todo r s) := by
  induction todo generalizing r s with
  | nil => exact respond_quiets _ _ _ _ _
  | cons a rest ih =>
    unfold State.advance
    split
    · exact ih _ _
    · next hv =>
      split
      · unfold State.askFill
        refine (setEngine_quiets_of_ne s n _ (fun k h => by cases h)).trans (place_quiets _ _ ?_)
        refine ⟨n, rfl, rfl, ?_⟩
        simp only [State.port_setEngine_self]
        omega
      · next e he =>
        have hm := mem_cache_touch he
        split
        · unfold State.askAccess
          refine (updPort_cache_quiets s n _).trans ((setEngine_quiets_of_ne _ n _ (fun k h => by cases h)).trans
            (place_quiets _ _ ?_))
          cases a with
          | read p => trivial
          | stage v m => exact ⟨n, e, by simpa using hm, r.point, rfl⟩
          | post v m => exact ⟨n, e, by simpa using hm, r.point, rfl⟩
        · exact (updPort_cache_quiets s n _).trans (ih _ _)

theorem goOn_quiets (s : State) (n : Port) (r : PointRun) : Quiets s (s.goOn n r) := advance_quiets _ _ _ _

theorem settlePoint_quiets (s : State) (n : Port) (r : PointRun) (x : PointResult) : Quiets s (s.settlePoint n r x) :=
  goOn_quiets _ _ _

/-! ## Placing -/

/-- What placing never changes: the ports and the groups, on which the conditions of a placed operation rest. -/
structure SamePlacing (s t : State) : Prop where
  ports : t.ports = s.ports
  groups : t.groups = s.groups

theorem SamePlacing.placed {s t : State} (h : SamePlacing s t) {op : BankOp} (ho : op.placed s) : op.placed t := by
  have hp : ∀ n, t.port n = s.port n := fun n => by simp only [State.port, h.ports]
  have hg : ∀ g, t.group g = s.group g := fun g => by simp only [State.group, h.groups]
  obtain ⟨who, slot, act, dropped⟩ := op
  cases act <;> simp only [BankOp.placed, hp, hg] at ho ⊢ <;> exact ho

theorem placed_place (s : State) (op op' : BankOp) (h : op.placed s) : op.placed (s.place op') :=
  SamePlacing.placed ⟨rfl, rfl⟩ h

theorem placed_arrivals (s : State) (op : BankOp) (k : Nat) (h : op.placed s) :
    op.placed { s with arrivals := k } := SamePlacing.placed ⟨rfl, rfl⟩ h

theorem placed_transferOp (s : State) (g : GroupId) (e : StageEntry) (h : e ∈ (s.group g).list) :
    (transferOp e).placed s := by
  unfold BankOp.placed transferOp
  exact ⟨g, e, h, rfl⟩

theorem places_quiets (s : State) (ops : List BankOp) (h : ∀ op ∈ ops, op.placed s) :
    Quiets s (ops.foldl State.place s) := by
  induction ops generalizing s with
  | nil => exact .refl
  | cons op ops ih =>
    exact (place_quiets s op (h op (by simp))).trans
      (ih _ (fun o ho => placed_place s o op (h o (by simp [ho]))))

theorem samePlacing_places (s : State) (ops : List BankOp) : SamePlacing s (ops.foldl State.place s) := by
  induction ops generalizing s with
  | nil => exact ⟨rfl, rfl⟩
  | cons op ops ih => have := ih (s.place op); exact ⟨this.ports, this.groups⟩

theorem samePlacing_placeTogether (s : State) (ops : List BankOp) : SamePlacing s (s.placeTogether ops) := by
  unfold State.placeTogether
  split
  · exact ⟨rfl, rfl⟩
  · exact ⟨rfl, rfl⟩
  · split
    · dsimp only
      exact ⟨(samePlacing_places _ _).ports, (samePlacing_places _ _).groups⟩
    · exact samePlacing_places _ _

theorem placeTogether_quiets (s : State) (ops : List BankOp) (h : ∀ op ∈ ops, op.placed s) :
    Quiets s (s.placeTogether ops) := by
  unfold State.placeTogether
  split
  · exact .refl
  · next op => exact place_quiets s op (h op (by simp))
  · next op more _ =>
    split
    · dsimp only
      have hf : ∀ k, List.getD (op :: more) k op ∈ op :: more := by
        intro k
        rw [List.getD_eq_getElem?_getD]
        cases hk : (op :: more)[k]? with
        | none => simp
        | some x => simpa using List.mem_of_getElem? hk
      refine (Quiets.of (.arrivals s (s.arrivals + 1))).trans ?_
      refine (place_quiets _ _ (placed_arrivals s _ _ (h _ (hf _)))).trans (places_quiets _ _ ?_)
      intro o ho
      exact placed_place _ _ _ (placed_arrivals s _ _ (h _ (List.mem_of_mem_erase ho)))
    · exact places_quiets s _ h

theorem placeAll_quiets (s : State) (ops : List BankOp) (h : ∀ op ∈ ops, op.placed s) : Quiets s (s.placeAll ops) := by
  unfold State.placeAll
  generalize [(0 : BankId), 1, 2, 3] = bs
  induction bs generalizing s with
  | nil => exact .refl
  | cons b bs ih =>
    have hs := samePlacing_placeTogether s (ops.filter (fun op => bankOf op.slot == b))
    refine (placeTogether_quiets s _ (fun o ho => h o (List.mem_filter.1 ho).1)).trans (ih _ ?_)
    exact fun o ho => hs.placed (h o ho)

/-! ## The load engine -/

theorem startLoad_placed (s : State) : ∀ op ∈ s.startLoad.2, op.placed s.startLoad.1 := by
  unfold State.startLoad
  split
  · next g rest _ _ =>
    intro op ho
    obtain ⟨e, he, rfl⟩ := List.mem_map.1 ho
    refine placed_transferOp _ g e ?_
    rw [State.group_updGroup_self]
    exact List.mem_of_mem_take he
  · intro op ho; cases ho

theorem startAndPlace_quiets (s t : State) (h : Quiets s t.startLoad.1) : Quiets s t.startAndPlace :=
  h.trans (places_quiets _ _ (startLoad_placed t))

theorem armNow_quiets (s : State) (g : GroupId) (h : (s.group g).state = .staging ∨ (s.group g).state = .armed) :
    Quiets s (s.armNow g) := startAndPlace_quiets s _ (.of (.queueAndStart s g h))

theorem cycleEvent_quiets (s : State) : Quiets s s.cycleEvent := startAndPlace_quiets s _ (.of (.cycle s))

theorem heldReadOp_placed (s : State) (n : Port) (h : Hold) : (heldReadOp n h).placed s := by
  have : ∃ p, (heldReadOp n h).act = .read p := by
    unfold heldReadOp
    rcases h.run.todo with _ | ⟨a, _⟩
    · exact ⟨_, rfl⟩
    · cases a <;> exact ⟨_, rfl⟩
  obtain ⟨p, hp⟩ := this
  simp only [BankOp.placed, hp]

theorem heldReads_placed (s t : State) (g : GroupId) : ∀ op ∈ s.heldReads g, op.placed t := by
  intro op ho
  obtain ⟨n, _, hn⟩ := List.mem_filterMap.1 ho
  revert hn
  split
  · split
    · intro hn
      cases hn
      exact heldReadOp_placed _ _ _
    · intro hn; cases hn
  · intro hn; cases hn

theorem transferred_placed (s : State) (p : Nat) (skip : Bool) :
    ∀ op ∈ (s.transferred p skip).2, op.placed (s.transferred p skip).1 := by
  unfold State.transferred
  split
  · intro op ho; cases ho
  · next g _ =>
    dsimp only
    split
    · intro op ho
      unfold State.endLoad at *
      dsimp only at *
      rcases List.mem_append.1 ho with h | h
      · exact heldReads_placed _ _ _ op h
      · exact startLoad_placed _ op h
    · next e _ he =>
      intro op ho
      have : op = transferOp e := by simpa using ho
      subst this
      exact placed_transferOp _ g e (by rw [he]; simp)

/-! ## Requests -/

theorem arm_quiets (s : State) (n : Port) (g : GroupId) (now : Bool) : Quiets s (s.arm n g now).2 := by
  unfold State.arm
  split
  · exact .refl
  · split
    · exact .refl
    · exact .refl
    · exact .refl
    · next hst =>
      split
      · exact armNow_quiets s g (.inl hst)
      · split
        · next hm => exact .of (.arm s g hst hm)
        · exact .refl
    · next hst =>
      split
      · exact armNow_quiets s g (.inr hst)
      · exact .refl

theorem discardRequest_quiets (s : State) (n : Port) (g : GroupId) : Quiets s (s.discardRequest n g).2 := by
  unfold State.discardRequest
  split
  · exact .refl
  · split <;> first
      | exact .refl
      | (next h => exact .of (.discard s g (by rw [h]; decide) (by rw [h]; decide)))

theorem groupWrite_quiets (s : State) (g : GroupId) (mode : GroupMode) (arms : BitVec 4) :
    Quiets s (s.groupWrite g mode arms).2 := by
  unfold State.groupWrite
  split
  · next h => exact .of (.groupWrite s g mode arms h)
  · exact .refl

end Sys2Proof.Machine
end

