-- ==== Sys2Proof/Laws/Steps.lean ====
section
/-! SUPPORT. Requests, completions and events as chains of moves, ending in `exec_moves`: whatever command is carried out,
the part makes a chain of the moves of Laws/Moves.lean. -/

theorem Relation.ReflTransGen.moves {s t : Sys2Proof.Machine.State} (h : Relation.ReflTransGen Sys2Proof.Machine.Quiet s t) :
    Sys2Proof.Machine.Moves s t := Relation.ReflTransGen.mono (fun _ _ h => Sys2Proof.Machine.Move.quiet h) _ _ h

namespace Sys2Proof.Machine

/-! ## Requests -/

theorem clearEvents_quiets (s : State) (n : Port) (flags : BitVec 6) (kinds : BitVec 11) :
    Quiets s (s.clearEvents n flags kinds) := .port n (.clear _ (~~~kinds) true)

theorem emptyLoaded_quiets (s : State) (n : Port) : Quiets s (s.emptyLoaded n) := by
  have h : s.emptyLoaded n = s.setPort n { s.port n with
      linkErrors := (s.port n).linkErrors, sticky := (s.port n).sticky &&& BitVec.allOnes 11, loaded := 0 } := by
    rw [BitVec.and_allOnes]; rfl
  rw [h]
  exact Quiets.port n (.clear _ _ false)

theorem askSingle_quiets (s : State) (n : Port) (tag : Byte) (slot : Nat) (act : Act)
    (h : ∀ t : State, t.ports = (s.setEngine n (.waiting (.single tag))).ports →
      BankOp.placed t { who := .ce n, slot := slot, act := act, dropped := false }) :
    Quiets s (s.askSingle n tag slot act) :=
  (setEngine_quiets_of_ne s n _ (fun k h => by cases h)).trans (place_quiets _ _ (h _ rfl))

theorem awaitReset_quiets (s : State) (n : Port) (tag : Byte) (scope : ResetScope) : Quiets s (s.awaitReset n tag scope) := by
  unfold State.awaitReset
  split
  · exact .refl
  · exact (respond_quiets _ _ _ _ _).trans (setEngine_quiets_of_ne _ _ _ (fun k h => by cases h))

theorem runRequest_quiets (s : State) (n : Port) (tag : Byte) (r : Request) (hr : r.wf = true) :
    Quiets s (s.runRequest n tag r) := by
  cases r <;> simp only [State.runRequest]
  case probe => exact respond_quiets _ _ _ _ _
  case status => exact respond_quiets _ _ _ _ _
  case clear => exact (clearEvents_quiets _ _ _ _).trans (respond_quiets _ _ _ _ _)
  case loaded => exact (emptyLoaded_quiets _ _).trans (respond_quiets _ _ _ _ _)
  case run => exact goOn_quiets _ _ _
  case arm => exact (arm_quiets _ _ _ _).trans (respond_quiets _ _ _ _ _)
  case discard => exact (discardRequest_quiets _ _ _).trans (respond_quiets _ _ _ _ _)
  case groupStatus => exact respond_quiets _ _ _ _ _
  case cycle => exact (cycleEvent_quiets _).trans (respond_quiets _ _ _ _ _)
  case descRead => exact askSingle_quiets _ _ _ _ _ (fun _ _ => trivial)
  case descWrite p policy desc low high =>
    split
    · exact respond_quiets _ _ _ _ _
    · next hc =>
      refine askSingle_quiets _ _ _ _ _ (fun _ _ => ?_)
      simp only [Request.wf, Bool.and_eq_true, decide_eq_true_eq] at hr
      refine ⟨hr.1, ?_⟩
      have h2 := hr.2
      cases hd : decodeDesc desc with
      | none => simp [hd] at h2
      | some d =>
        simp only [hd, Option.any_some, beq_iff_eq] at h2
        exact ⟨d, rfl, by rw [h2]; simpa using hc⟩
  case groupWrite => exact (groupWrite_quiets _ _ _ _).trans (respond_quiets _ _ _ _ _)
  case mapRead => exact askSingle_quiets _ _ _ _ _ (fun _ _ => trivial)
  case mapWrite t l e =>
    split
    · exact respond_quiets _ _ _ _ _
    · next hc =>
      refine askSingle_quiets _ _ _ _ _ (fun _ _ => ?_)
      simp only [Request.wf, Bool.and_eq_true, decide_eq_true_eq] at hr
      refine ⟨rfl, by omega, fun he => ?_⟩
      simp only [he, Bool.true_and, decide_eq_true_eq] at hc
      omega
  case flush t => exact (Quiets.port t (.cache [] .flush)).trans (respond_quiets _ _ _ _ _)
  case settingRead => exact respond_quiets _ _ _ _ _
  case settingWrite i m v ok =>
    simp only [Request.wf, Bool.and_eq_true, decide_eq_true_eq] at hr
    split
    · exact (Quiets.of (.setting s i m v hr.1.1.2 hr.1.2)).trans (respond_quiets _ _ _ _ _)
    · exact respond_quiets _ _ _ _ _
  case logRead => exact (Quiets.of (.logUpdate s s.log.uncorrectable)).trans (respond_quiets _ _ _ _ _)
  case logClear => exact (Quiets.of (.logUpdate s none)).trans (respond_quiets _ _ _ _ _)
  case reset =>
    split
    · exact awaitReset_quiets _ _ _ _
    · exact respond_quiets _ _ _ _ _

/-- A request that passes steps 1 to 4 of R141 has its fields in their ranges. -/
theorem checkRequest_wf {s : State} {n : Port} {op : Byte} {ps : List Byte} {r : Request}
    (h : s.checkRequest n op ps = .ok r) : r.wf = true := by
  unfold State.checkRequest at h
  split at h
  · cases h
  · split at h
    · cases h
    · next dec hd =>
      split at h
      · cases h
      · next r' hr =>
        split at h
        · cases h; exact decode_wf hd hr
        · cases h

theorem runFrame_quiets (s : State) (n : Port) (f : List Byte) : Quiets s (s.runFrame n f) := by
  unfold State.runFrame
  split
  · split
    · exact respond_quiets _ _ _ _ _
    · next h => exact runRequest_quiets _ _ _ _ (checkRequest_wf h)
  · exact .refl

theorem takeHead_quiets (s : State) (n : Port) (k : BufId) (f : List Byte) (rest : List (List Byte))
    (hq : (s.port n).queue = f :: rest) : Quiets s (s.takeHead n k rest) := by
  have h : s.takeHead n k rest = s.setPort n { (s.port n).setBuf k .reserved with queue := rest } := rfl
  obtain ⟨a, b, hb⟩ := (s.port n).setBuf_buffers k .reserved
  rw [h, hb]
  refine Quiets.port_port (p := { s.port n with queue := rest }) (.port n (.dequeue f rest hq)) ?_
  have := PortMove.buffers (s := s.setPort n { s.port n with queue := rest }) (n := n) a b
  rwa [State.port_setPort_self] at this

theorem serveFuel_quiets (n : Port) (k : Nat) (s : State) : Quiets s (State.serveFuel n k s) := by
  induction k generalizing s with
  | zero => exact .refl
  | succ k ih =>
    unfold State.serveFuel
    split
    · next hq _ => exact (takeHead_quiets s n _ _ _ hq).trans ((runFrame_quiets _ _ _).trans (ih _))
    · exact .refl

theorem serve_quiets (s : State) (n : Port) : Quiets s (s.serve n) := serveFuel_quiets _ _ _

/-- The passage of a frame (R128, R129, R139). -/
theorem goodFrame_quiets (s : State) (n : Port) (f : List Byte)
    (hf : (s.port n).asm.sound → 2 ≤ f.length ∧ f.length ≤ 80) : Quiets s (s.goodFrame n f) := by
  unfold State.goodFrame State.passFrame
  refine Relation.ReflTransGen.trans ?_ (serve_quiets _ n)
  rw [State.updPort_updPort]
  unfold PortState.enqueue State.updPort
  dsimp only
  split
  · next hq => exact Quiets.port n (.enqueue f hq hf _ _ rfl rfl)
  · exact Quiets.port n (.link .looking .hunt none _ (fun _ => trivial) (fun _ _ => rfl))

/-! ## Completions -/

theorem Moves.of {s t : State} (h : Move s t) : Moves s t := Relation.ReflTransGen.single h

theorem repairWords_moves (s : State) (i : Nat) (ws : List WordName) : Moves s (s.repairWords i ws) := by
  induction ws generalizing s with
  | nil => exact .refl
  | cons w ws ih => exact (Moves.of (.repair s i w)).trans (ih _)

theorem repairOnAccess_moves (s : State) (i : Nat) (ws : List WordName) : Moves s (s.repairOnAccess i ws) := by
  unfold State.repairOnAccess
  split
  · exact repairWords_moves _ _ _
  · exact .refl

theorem takeFindings_quiets (s : State) (fs : List Finding) : Quiets s (s.takeFindings fs) := by
  induction fs generalizing s with
  | nil => exact .refl
  | cons f fs ih => exact (Quiets.of (.finding s f)).trans (ih _)

theorem endCompletion_moves (z s : State) (b : BankId) (src : Requester) (i : Nat) (ws : List WordName)
    (h : (s.bank b).phase ≠ .init) : Moves s (z.endCompletion s b src i ws) := by
  unfold State.endCompletion
  refine (repairOnAccess_moves _ _ _).trans ((takeFindings_quiets _ _).trans (Quiets.of (.grantNext _ b ?_))).moves
  simpa using h

theorem beginHold_quiets (s : State) (n : Port) (r : PointRun) (g : GroupId) (slot : Nat) (c : Half)
    (h : (s.group g).state = .loading) : Quiets s (s.beginHold n r g slot c) := by
  unfold State.beginHold
  exact setEngine_quiets _ _ _ (fun k hk => by cases hk; exact .inl h)

theorem planRead_hold {s : State} {slot : Nat} {prefer : Bool} {g : GroupId} (h : s.planRead slot prefer = .hold g) :
    (s.group g).state = .loading := by
  unfold State.planRead at h
  split at h
  · cases h
  · cases h
  · split at h
    · cases h
    · cases h
    · cases h
    · split at h
      · cases h; assumption
      · split at h <;> cases h

theorem readHanded_quiets (z s : State) (n : Port) (slot : Nat) (plan : ReadPlan)
    (h : ∀ g, plan = .hold g → (s.group g).state = .loading) : Quiets s (z.readHanded s n slot plan) := by
  unfold State.readHanded
  split
  · cases plan
    case hold g => exact beginHold_quiets _ _ _ _ _ _ (h g rfl)
    case refuse => exact (settlePoint_quiets _ _ _ _).trans (serve_quiets _ _)
    case word => exact (settlePoint_quiets _ _ _ _).trans (serve_quiets _ _)
  · exact .refl

theorem inFlight_busy {s : State} {b : BankId} {op : BankOp} (h : s.inFlight b = some op) : s.carries b op := by
  unfold State.inFlight at h
  split at h
  · cases h
  · split at h
    · next hp => cases h; exact hp
    · cases h

theorem carries_not_init {s : State} {b : BankId} {op : BankOp} (h : s.carries b op) : (s.bank b).phase ≠ .init := by
  unfold State.carries at h
  rw [h]
  exact fun h => by cases h

theorem readDone_moves (s : State) (b : BankId) (n : Port) (slot : Nat) (prefer dropped : Bool)
    (h : (s.bank b).phase ≠ .init) : Moves s (s.readDone b n slot prefer dropped) := by
  unfold State.readDone
  have h1 := endCompletion_moves s s b (.ce n) slot (s.planRead slot prefer).reads h
  cases dropped
  · refine h1.trans (readHanded_quiets _ _ _ _ _ ?_).moves
    intro g hg
    simpa using planRead_hold hg
  · exact h1.trans (Quiets.of (.release _ _)).moves

theorem writeHanded_quiets (z s : State) (n : Port) (slot : Nat) (st : PointStatus) (ws : List WordName) :
    Quiets s (z.writeHanded s n slot st ws) := by
  unfold State.writeHanded
  split
  · exact (settlePoint_quiets _ _ _ _).trans (serve_quiets _ _)
  · exact .refl

theorem newStage_bank (s : State) (n : Port) (p : Nat) (g : GroupId) (b : BankId) : (s.newStage n p g).bank b = s.bank b := by
  unfold State.newStage
  split
  · rfl
  · dsimp only; split <;> rfl

theorem restage_bank (s : State) (n : Port) (p : Nat) (b : BankId) : (s.restage n p).bank b = s.bank b := by
  unfold State.restage
  split <;> rfl

theorem removeStage_bank (s : State) (g : GroupId) (e : StageEntry) (b : BankId) :
    (s.removeStage g e).bank b = s.bank b := by
  unfold State.removeStage
  dsimp only
  split <;> rfl

theorem stageEffect_moves (s : State) (b : BankId) (n : Port) (slot : Nat) (v : Value) (m : Option Value) (d : Bool)
    (h : s.carries b ⟨.ce n, slot, .stage v m, d⟩) :
    Moves s (s.stageEffect n slot v m).state ∧ ((s.stageEffect n slot v m).state.bank b) = s.bank b := by
  unfold State.stageEffect
  split
  · exact ⟨.refl, rfl⟩
  · dsimp only
    split
    · exact ⟨.refl, rfl⟩
    · split
      · exact ⟨.refl, rfl⟩
      · exact ⟨.refl, rfl⟩
      · exact ⟨(Quiets.of (.restage s n slot)).moves.trans (Moves.of (.writeStaged _ _ _)), restage_bank s n slot b⟩
      · next ha =>
        exact ⟨(Quiets.of (.newStage s n slot _ ha ⟨b, v, m, d, h⟩)).moves.trans (Moves.of (.writeStaged _ _ _)),
          newStage_bank s n slot _ b⟩

theorem postEffect_moves (s : State) (b : BankId) (n : Port) (slot : Nat) (v : Value) (m : Option Value) (d : Bool)
    (h : s.carries b ⟨.ce n, slot, .post v m, d⟩) :
    Moves s (s.postEffect n slot v m).state ∧ ((s.postEffect n slot v m).state.bank b) = s.bank b := by
  unfold State.postEffect
  split
  · exact ⟨.refl, rfl⟩
  · dsimp only
    split
    · exact ⟨.refl, rfl⟩
    · exact ⟨Moves.of (.writeLive s b _ _ h (.inr ⟨v, m, rfl⟩)), rfl⟩

theorem writeDone_moves (s : State) (b : BankId) (n : Port) (slot : Nat) (dropped : Bool) (x : WriteEffect)
    (hx : Moves s x.state) (hb : x.state.bank b = s.bank b) (h : (s.bank b).phase ≠ .init) :
    Moves s (s.writeDone b n slot dropped x) := by
  unfold State.writeDone
  have h1 := hx.trans (endCompletion_moves s x.state b (.ce n) slot x.reads (by rw [hb]; exact h))
  cases dropped
  · exact h1.trans (writeHanded_quiets _ _ _ _ _ _).moves
  · exact h1.trans (Quiets.of (.release _ _)).moves

theorem singleHanded_quiets (s : State) (n : Port) (dropped : Bool) (st : FrameStatus) (body : List Byte) :
    Quiets s (s.singleHanded n dropped st body) := by
  unfold State.singleHanded
  split
  · exact Quiets.of (.release _ _)
  · split
    · exact (respond_quiets _ _ _ _ _).trans (serve_quiets _ _)
    · exact .refl

theorem descWriteEffect_moves (s : State) (b : BankId) (op : BankOp) (desc low high : Value)
    (h : s.carries b op) (ha : op.act = .descWrite desc low high) :
    Moves s (s.descWriteEffect op.slot desc low high).2 ∧
      ((s.descWriteEffect op.slot desc low high).2.bank b) = s.bank b := by
  unfold State.descWriteEffect
  split
  · exact ⟨Moves.of (.writeRecord s b op _ _ _ h ha), rfl⟩
  · next g e hm =>
    split
    · exact ⟨.refl, rfl⟩
    · next hl =>
      have hb := removeStage_bank s g e b
      refine ⟨(Quiets.of (.removeStage s _ g e hm hl)).moves.trans (Moves.of (.writeRecord _ b op _ _ _ ?_ ha)), hb⟩
      simpa only [State.carries, hb] using h

theorem insertFill_moves (s : State) (n : Port) (l : Nat) (inserts : Bool) (e : MapEntry) :
    Moves s (s.insertFill n l inserts e) := by
  unfold State.insertFill
  split
  · next h => exact Moves.of (.insert s n _ h.2)
  · exact .refl

theorem useEntry_moves (s : State) (n : Port) (r : PointRun) (e : MapEntry) : Moves s (s.useEntry n r e) := by
  unfold State.useEntry
  split
  · exact (goOn_quiets _ _ _).moves
  · next a _ _ =>
    split
    · unfold State.askAccess
      refine (setEngine_quiets_of_ne s n _ (fun k h => by cases h)).moves.trans (Moves.of (.placeTranslated _ _ ?_))
      cases a
      · exact .inl ⟨_, rfl⟩
      · exact .inr (.inl ⟨_, _, rfl⟩)
      · exact .inr (.inr ⟨_, _, rfl⟩)
    · exact (settlePoint_quiets _ _ _ _).moves

theorem fillHanded_moves (s : State) (n : Port) (l : Nat) (inserts : Bool) (x : Stored) :
    Moves s (s.fillHanded n l inserts x) := by
  unfold State.fillHanded
  split
  · dsimp only
    split
    · exact ((settlePoint_quiets _ _ _ _).trans (serve_quiets _ _)).moves
    · split
      · exact ((settlePoint_quiets _ _ _ _).trans (serve_quiets _ _)).moves
      · exact (insertFill_moves _ _ _ _ _).trans ((useEntry_moves _ _ _ _).trans (serve_quiets _ _).moves)
  · exact .refl

theorem startLoad_samePlacing_banks (s : State) (b : BankId) : s.startLoad.1.bank b = s.bank b := by
  unfold State.startLoad; split <;> rfl

theorem returnHead_bank (s : State) (g : GroupId) (b : BankId) : (s.returnHead g).bank b = s.bank b := by
  unfold State.returnHead; split <;> rfl

theorem transferred_bank (s : State) (p : Nat) (skip : Bool) (b : BankId) :
    ((s.transferred p skip).1).bank b = s.bank b := by
  unfold State.transferred
  split
  · rfl
  · next g _ =>
    dsimp only
    have h := returnHead_bank { s with load := s.load.after p skip } g b
    split
    · unfold State.endLoad
      dsimp only
      rw [startLoad_samePlacing_banks]
      exact h
    · exact h

theorem copyStaged_moves (s : State) (b : BankId) (op : BankOp) (h : s.carries b op) (ha : op.act = .transfer) :
    Moves s (s.copyStaged op.slot) ∧ (s.copyStaged op.slot).bank b = s.bank b := by
  unfold State.copyStaged
  split
  · exact ⟨Moves.of (.writeLive s b op _ h (.inl ha)), rfl⟩
  · exact ⟨.refl, rfl⟩

theorem transferDone_moves (s : State) (b : BankId) (op : BankOp) (h : s.carries b op) (ha : op.act = .transfer) :
    Moves s (s.transferDone b op.slot) := by
  obtain ⟨h1, hb1⟩ := copyStaged_moves s b op h ha
  unfold State.transferDone
  dsimp only
  have h2 := h1.trans (repairOnAccess_moves _ op.slot [.staged])
  have h3 := h2.trans (takeFindings_quiets _ (s.findings .load op.slot [.staged])).moves
  have hb3 : ((((s.copyStaged op.slot).repairOnAccess op.slot [.staged]).takeFindings
      (s.findings .load op.slot [.staged]))).bank b = s.bank b := by simpa using hb1
  revert h3 hb3
  generalize (((s.copyStaged op.slot).repairOnAccess op.slot [.staged]).takeFindings
      (s.findings .load op.slot [.staged])) = u
  intro h3 hb3
  generalize ((s.word op.slot .staged).yield.isNone) = skip
  have h4 : Quiets u (u.transferred op.slot skip).1 := Quiets.of (.transferred u op.slot skip)
  have hp := transferred_placed u op.slot skip
  have hb4 : ((u.transferred op.slot skip).1.bank b).phase ≠ .init := by
    rw [transferred_bank, hb3]; exact carries_not_init h
  refine h3.trans (h4.trans ((Quiets.of (.grantNext _ b hb4)).trans (placeAll_quiets _ _ ?_))).moves
  intro o ho
  exact SamePlacing.placed ⟨rfl, rfl⟩ (hp o ho)

theorem patrolNext_quiets (s : State) (slot : Nat) : Quiets s (s.patrolNext slot) := by
  unfold State.patrolNext
  split
  · next h => exact Quiets.of (.patrol s _ (by omega))
  · exact (Quiets.of (.patrol s 0 (by omega))).trans (Quiets.of (.raiseAll _ .scrubPass rfl))

theorem patrolNext_bank (s : State) (slot : Nat) (b : BankId) : (s.patrolNext slot).bank b = s.bank b := by
  unfold State.patrolNext; split <;> rfl

theorem scrubDone_moves (s : State) (b : BankId) (slot : Nat) (h : (s.bank b).phase ≠ .init) :
    Moves s (s.scrubDone b slot) := by
  unfold State.scrubDone
  refine (repairWords_moves _ _ _).trans ((takeFindings_quiets _ _).trans ((patrolNext_quiets _ _).trans
    (Quiets.of (.grantNext _ b ?_)))).moves
  rw [patrolNext_bank]
  simpa using h

theorem startPatrol_quiets (s : State) : Quiets s s.startPatrol := by
  unfold State.startPatrol
  split
  · exact (Quiets.of (.patrol s 0 (by omega))).trans (Quiets.of (.timers _ s.cycleTimer s.freshScrubTimer))
  · exact .refl

theorem fillSlot_bank (s : State) (i : Nat) (b : BankId) : (s.fillSlot i).bank b = s.bank b := rfl

theorem fillDone_moves (s : State) (b : BankId) (h : (s.bank b).phase = .init) : Moves s (s.fillDone b) := by
  unfold State.fillDone
  dsimp only
  have h1 : Moves s (s.fillSlot (4 * (s.bank b).fillRow + b.val)) := Moves.of (.fillSlot s b _ h)
  have hb := fillSlot_bank s (4 * (s.bank b).fillRow + b.val) b
  revert h1 hb
  generalize s.fillSlot (4 * (s.bank b).fillRow + b.val) = u
  intro h1 hb
  rw [← hb] at h ⊢
  split
  · next hr => exact h1.trans (Quiets.of (.fillNext u b h hr)).moves
  · next hr => exact h1.trans ((Quiets.of (.fillLast u b h hr)).trans (startPatrol_quiets _)).moves

/-! ## Link events -/

theorem link_quiets (s : State) (n : Port) (rx : Receiver) (a : Assembler) (gap : Option Nat) (errs : BitVec 6)
    (hs : (s.port n).asm.sound → a.sound)
    (hg : ((s.port n).asm = .hunt → (s.port n).gapTimer = none) → a = .hunt → gap = none) :
    Quiets s (s.setPort n { s.port n with rx := rx, asm := a, gapTimer := gap, linkErrors := errs }) :=
  .port n (.link rx a gap errs hs hg)

theorem discardFrame_quiets (s : State) (n : Port) (f : BitVec 6) : Quiets s (s.updPort n (fun p => p.discardFrame f)) :=
  link_quiets s n (s.port n).rx .hunt none _ (fun _ => trivial) (fun _ _ => rfl)

theorem inFrame_quiets (s : State) (n : Port) (a : Assembler) (h : (s.port n).asm.sound → a.sound) (hn : a ≠ .hunt) :
    Quiets s (s.updPort n (fun p => p.inFrame a)) :=
  link_quiets s n (s.port n).rx a _ (s.port n).linkErrors h (fun _ h => absurd h hn)

theorem failedChar_quiets (s : State) (n : Port) (pOk sOk : Bool) :
    Quiets s (s.updPort n (fun p => p.failedChar pOk sOk)) := by
  unfold PortState.failedChar State.updPort
  dsimp only
  split
  · exact link_quiets s n (s.port n).rx (s.port n).asm (s.port n).gapTimer (s.port n).linkErrors id id
  · exact link_quiets s n (s.port n).rx .hunt none _ (fun _ => trivial) (fun _ _ => rfl)

theorem takeChar_quiets (s : State) (n : Port) (d : Byte) : Quiets s (s.takeChar n d) := by
  unfold State.takeChar
  split
  · split
    · exact inFrame_quiets _ _ _ (fun _ => trivial) (fun h => by cases h)
    · exact .refl
  · split
    · next h => exact inFrame_quiets _ _ _ (fun _ => ⟨h.1, h.2, by omega, by simp⟩) (fun h => by cases h)
    · exact discardFrame_quiets _ _ _
  · next len left got ha =>
    split
    · refine inFrame_quiets _ _ _ ?_ (fun h => by cases h)
      rw [ha]
      rintro ⟨h1, h2, h3, h4⟩
      exact ⟨h1, h2, by simp; omega⟩
    · refine inFrame_quiets _ _ _ ?_ (fun h => by cases h)
      rw [ha]
      rintro ⟨h1, h2, h3, h4⟩
      exact ⟨h1, h2, by omega, by simp; omega⟩
  · next len got ha =>
    split
    · exact discardFrame_quiets _ _ _
    · refine goodFrame_quiets _ _ _ ?_
      rw [ha]
      rintro ⟨h1, h2, h3⟩
      omega

theorem rx_quiets (s : State) (n : Port) (rx : Receiver) : Quiets s (s.updPort n (fun p => { p with rx := rx })) :=
  link_quiets s n rx (s.port n).asm (s.port n).gapTimer (s.port n).linkErrors id id

theorem bufferSent_quiets (s : State) (n : Port) (k : BufId) : Quiets s (s.bufferSent n k) := by
  obtain ⟨a, b, h1⟩ := (s.port n).setBuf_buffers k .free
  obtain ⟨x, y, h2⟩ := PortState.startTransmitter_buffers { s.port n with buf0 := a, buf1 := b }
  have e : s.bufferSent n k = s.setPort n { s.port n with buf0 := x, buf1 := y } := by
    simp only [State.bufferSent, State.updPort]
    rw [h1, h2]
  rw [e]
  exact Quiets.port n (.buffers x y)

theorem resetAfter_quiets (s : State) (n : Port) (k : BufId) (e : Engine) : Quiets s (s.resetAfter n k e) := by
  unfold State.resetAfter
  split
  · split
    · unfold State.takeReset
      split
      · exact Quiets.of (.warmReset s)
      · next m => exact (Quiets.of (.portReset s m)).trans (setEngine_quiets_of_ne _ _ _ (fun k h => by cases h))
    · exact .refl
  · exact .refl

/-! ## Pin events -/

theorem holdExpires_quiets (s : State) (n : Port) (h : Hold) (he : (s.port n).ce = .holding h) :
    Quiets s (s.holdExpires n h) := by
  unfold State.holdExpires
  have h1 : Quiets s (s.raise n .holdExpired) := Quiets.of (.raise s n .holdExpired rfl)
  split
  · refine h1.trans (setEngine_quiets _ _ _ ?_)
    intro k hk
    cases hk
    refine .inr ⟨h, ?_, rfl⟩
    rw [State.port_raise, if_pos rfl]
    exact he
  · exact h1.trans ((settlePoint_quiets _ _ _ _).trans (serve_quiets _ _))

theorem slotChoice_quiets (s : State) : Quiets s s.slotChoice := by
  unfold State.slotChoice
  split
  · exact .refl
  · split
    · exact .refl
    · split
      · exact place_quiets _ _ trivial
      · have h1 : Quiets s ({ s with patrol := 0 }.raiseAll .scrubPass) :=
          (Quiets.of (.patrol s 0 (by omega))).trans (Quiets.of (.raiseAll _ .scrubPass rfl))
        dsimp only
        split
        · exact h1.trans (place_quiets _ _ trivial)
        · exact h1

/-! ## Every command -/

theorem sendRequest_moves {n : Port} {f : List Byte} {s t : State} (h2 : 2 ≤ f.length) (h : sendRequest n f s = .next t) :
    Moves s t := by
  unfold sendRequest at h
  split at h
  · next hf =>
    split at h
    · cases h; exact (goodFrame_quiets _ _ _ (fun _ => ⟨h2, hf⟩)).moves
    · cases h; exact .refl
  · cases h

theorem unlessUndefined_next {s : State} {slot : Nat} {u t : State} (h : unlessUndefined s slot u = .next t) : u = t := by
  unfold unlessUndefined at h
  split at h
  · cases h
  · cases h; rfl

/-- Every command that answers a next state is a chain of moves. -/
theorem exec_moves {c : Instr} {s t : State} (h : exec c s = .next t) : Moves s t := by
  cases c
  all_goals (try (exact sendRequest_moves (by simp) h))
  case disturbance slot w => cases h; exact Moves.of (.disturb s slot.val w)
  case startBit n =>
    simp only [exec, execStartBit] at h
    split at h
    · cases h
      next hc =>
      exact (link_quiets s n .taking (s.port n).asm none (s.port n).linkErrors id (fun _ _ => rfl)).moves
    · cases h; exact .refl
  case characterArrival n d pb s1 s2 =>
    simp only [exec, execCharacterArrival] at h
    split at h
    · split at h
      · cases h; exact ((rx_quiets _ _ _).trans (takeChar_quiets _ _ _)).moves
      · cases h; exact ((rx_quiets _ _ _).trans (failedChar_quiets _ _ _ _)).moves
    · cases h; exact .refl
  case gapExpiry n =>
    simp only [exec, execGapExpiry] at h
    split at h
    · cases h; exact (discardFrame_quiets _ _ _).moves
    · cases h; exact .refl
  case lastByteLeaves n =>
    simp only [exec, execLastByteLeaves] at h
    split at h
    · cases h; exact .refl
    · split at h
      · cases h; exact .refl
      · cases h
        exact ((bufferSent_quiets _ _ _).trans ((resetAfter_quiets _ _ _ _).trans (serve_quiets _ _))).moves
  case resetLineLow => cases h; exact Moves.of (.stop s)
  case coldReset roles => cases h; exact Moves.of (.cold s roles)
  case loadEdge e =>
    simp only [exec, execLoadEdge] at h
    split at h
    · cases h; exact (cycleEvent_quiets _).moves
    · cases h; exact .refl
  case cycleTimerExpiry =>
    simp only [exec, execCycleTimerExpiry] at h
    split at h
    · cases h; exact ((Quiets.of (.timers s _ s.scrubTimer)).trans (cycleEvent_quiets _)).moves
    · cases h; exact .refl
  case holdTimerExpiry n =>
    simp only [exec, execHoldTimerExpiry] at h
    split at h
    · cases h; exact .refl
    · split at h
      · next hd he =>
        split at h
        · cases h; exact (holdExpires_quiets _ _ _ he).moves
        · cases h; exact .refl
      · cases h; exact .refl
  case scrubTimerExpiry =>
    simp only [exec, execScrubTimerExpiry] at h
    split at h
    · cases h; exact ((Quiets.of (.timers s s.cycleTimer _)).trans (slotChoice_quiets _)).moves
    · cases h; exact .refl
  case readCompletion b =>
    simp only [exec, execReadCompletion] at h
    split at h
    · next hf =>
      cases unlessUndefined_next h
      exact readDone_moves _ _ _ _ _ _ (carries_not_init (inFlight_busy hf))
    · cases h; exact .refl
  case stageCompletion b =>
    simp only [exec, execStageCompletion] at h
    split at h
    · next hf =>
      cases unlessUndefined_next h
      have hc := inFlight_busy hf
      obtain ⟨h1, h2⟩ := stageEffect_moves s b _ _ _ _ _ hc
      exact writeDone_moves _ _ _ _ _ _ h1 h2 (carries_not_init hc)
    · cases h; exact .refl
  case postCompletion b =>
    simp only [exec, execPostCompletion] at h
    split at h
    · next hf =>
      cases unlessUndefined_next h
      have hc := inFlight_busy hf
      obtain ⟨h1, h2⟩ := postEffect_moves s b _ _ _ _ _ hc
      exact writeDone_moves _ _ _ _ _ _ h1 h2 (carries_not_init hc)
    · cases h; exact .refl
  case descReadCompletion b =>
    simp only [exec, execDescReadCompletion] at h
    split at h
    · next hf =>
      cases h
      exact (endCompletion_moves _ _ _ _ _ _ (carries_not_init (inFlight_busy hf))).trans (singleHanded_quiets _ _ _ _ _).moves
    · cases h; exact .refl
  case descWriteCompletion b =>
    simp only [exec, execDescWriteCompletion] at h
    split at h
    · next n slot d l hi dr hf =>
      cases h
      have hc := inFlight_busy hf
      obtain ⟨h1, h2⟩ := descWriteEffect_moves s b ⟨.ce n, slot, .descWrite d l hi, dr⟩ d l hi hc rfl
      refine h1.trans ((Quiets.of (.grantNext _ b ?_)).trans (singleHanded_quiets _ _ _ _ _)).moves
      rw [h2]; exact carries_not_init hc
    · cases h; exact .refl
  case mapFillCompletion b =>
    simp only [exec, execMapFillCompletion] at h
    split at h
    · next n slot l ins dr hf =>
      cases h
      unfold State.mapFillDone
      have h1 := endCompletion_moves s s b (.ce n) slot [.live] (carries_not_init (inFlight_busy hf))
      cases dr
      · exact h1.trans (fillHanded_moves _ _ _ _ _)
      · exact h1.trans (Quiets.of (.release _ _)).moves
    · cases h; exact .refl
  case mapReadCompletion b =>
    simp only [exec, execMapReadCompletion] at h
    split at h
    · next hf =>
      cases h
      exact (endCompletion_moves _ _ _ _ _ _ (carries_not_init (inFlight_busy hf))).trans (singleHanded_quiets _ _ _ _ _).moves
    · cases h; exact .refl
  case mapWriteCompletion b =>
    simp only [exec, execMapWriteCompletion] at h
    split at h
    · next n slot t l e dr hf =>
      cases h
      have hc := inFlight_busy hf
      refine (Moves.of (.writeMap s b ⟨.ce n, slot, .mapWrite t l e, dr⟩ t l e hc rfl)).trans
        ((Quiets.of (.grantNext _ b ?_)).trans (singleHanded_quiets _ _ _ _ _)).moves
      exact carries_not_init hc
    · cases h; exact .refl
  case transferCompletion b =>
    simp only [exec, execTransferCompletion] at h
    split at h
    · next slot dr hf =>
      cases h
      exact transferDone_moves s b ⟨.load, slot, .transfer, dr⟩ (inFlight_busy hf) rfl
    · cases h; exact .refl
  case scrubCompletion b =>
    simp only [exec, execScrubCompletion] at h
    split at h
    · next hf => cases h; exact scrubDone_moves _ _ _ (carries_not_init (inFlight_busy hf))
    · cases h; exact .refl
  case fillCompletion b =>
    simp only [exec, execFillCompletion] at h
    split at h
    · cases h; exact .refl
    · split at h
      · next hp => cases h; exact fillDone_moves _ _ hp
      · cases h; exact .refl
  case lineReturnHigh n =>
    simp only [exec, execLineReturnHigh] at h
    split at h
    · cases h; exact (rx_quiets _ _ _).moves
    · cases h; exact .refl

end Sys2Proof.Machine
end

