-- ==== Sys2Proof/Tests/Slice0.lean ====
section
/-! SUPPORT. Checks of the model's own text: well-formedness on ill-formed commands, worked figures of the spec, one step of
each row on small states, and, for every statement with premises, states and operands that meet them. -/

namespace Sys2Proof.Machine.Tests

/-! ## Small states -/

/-- The state that a command answers; the state before where it stops. -/
def after (c : Instr) (s : State) : State :=
  match exec c s with
  | .next t => t
  | _ => s

/-- The part ready, every bank IDLE with its fill ended; port 0 a supervisor, the others members. -/
def ready : State :=
  { State.reset with
    banks := Vector.replicate 4 { Bank.cold with phase := .idle, fillRow := 1024 }, ports := coldPorts 1 }

/-- A SETPOINT of group 1, every port a writer, policy CLAMP, LOW 0, HIGH 4095. -/
def descClamp : Value := 0x000201F2

/-- Slot 0 with the given words, in the canonical form. -/
def withSlot0 (desc low high live staged : Stored) (s : State) : State :=
  { s with store := [(0, desc), (1, low), (2, high), (3, live), (4, staged)].filter (fun e => e.2 != fillWord) }

/-- Slot 0 a SETPOINT of group 1 with LIVE 5. -/
def point : State := withSlot0 (.clean descClamp) (.clean 0) (.clean 4095) (.clean 5) (.clean 0) ready

/-- Bank 0 busy with an operation on slot 0 of the given requester. -/
def busy (who : Requester) (act : Act) (s : State) : State :=
  s.setBank 0 { s.bank 0 with phase := .busy { who := who, slot := 0, act := act, dropped := false } }

/-- The same with its result dropped. -/
def busyDropped (n : Port) (act : Act) (s : State) : State :=
  s.setBank 0 { s.bank 0 with phase := .busy { who := .ce n, slot := 0, act := act, dropped := true } }

/-- A run of one point. -/
def run (a : PointAccess) : PointRun :=
  { tag := 7, shape := .read, down := false, point := 0, todo := [a], records := [], corrected := false }

/-- CE0 executing, buffer 0 RESERVED. -/
def executing (e : Engine) (s : State) : State := s.updPort 0 (fun p => { p with ce := e, buf0 := .reserved })

/-- A READ of slot 0 in flight for CE0. -/
def reading (s : State) : State :=
  executing (.waiting (.access (run (.read true)) 0)) (busy (.ce 0) (.read true) s)

/-- A STAGE of slot 0 in flight for CE0. -/
def staging (v : Value) (mask : Option Value) (s : State) : State :=
  executing (.waiting (.access { run (.stage v mask) with shape := .status } 0)) (busy (.ce 0) (.stage v mask) s)

/-- A POST of slot 0 in flight for CE0. -/
def posting (v : Value) (mask : Option Value) (s : State) : State :=
  executing (.waiting (.access { run (.post v mask) with shape := .status } 0)) (busy (.ce 0) (.post v mask) s)

/-- The one operation of a descriptor or map request in flight for CE0. -/
def asking (act : Act) (s : State) : State := executing (.waiting (.single 7)) (busy (.ce 0) act s)

/-- Group 1 in a state, with the given entries. -/
def groupIn (st : GroupState) (list : List StageEntry) (s : State) : State :=
  s.updGroup 0 (fun r => { r with state := st, list := list })

/-- The entry of slot 0 on group 1's list. -/
def entry0 : StageEntry := { entry := 0, point := 0, stager := 1 }

/-- Group 1 loading, its last entry slot 0's. -/
def loadingLast : State :=
  let s := groupIn .loading [entry0]
    (withSlot0 (.clean descClamp) (.clean 0) (.clean 4095) (.clean 5) (.clean 9) (busy .load .transfer ready))
  { s with engine := some 0 }

/-- The same with a second entry behind it. -/
def loadingMore : State := groupIn .loading [entry0, { entry := 1, point := 1, stager := 1 }] loadingLast

/-- CE0 holding on group 1, with its timer as given, the hold action WAIT or ABANDON. -/
def holding (waits : Bool) (timer : Option Nat) : State :=
  (executing (.holding { run := run (.read false), group := 0, slot := 0, cycle := 0xFFFF, timer := timer })
    (groupIn .loading [entry0] { ready with engine := some 0 })).updPort 0
      (fun p => { p with cfg := { p.cfg with holdWaits := waits } })

/-- A response being sent from buffer 0. -/
def answering (e : Engine) (s : State) : State :=
  s.updPort 0 (fun p =>
    { p with ce := e, buf0 := .sending { tag := 7, status := 0, summary := 0, body := [] } p.form })

/-- The receiver of link 0 taking a character, the assembler in a state. -/
def taking0 (a : Assembler) (s : State) : State := s.updPort 0 (fun p => { p with rx := .taking, asm := a })

/-- Queue of link 0 with k frames, CE0 waiting. -/
def queued (k : Nat) : State :=
  executing (.waiting (.single 1)) (ready.updPort 0 (fun p => { p with queue := List.replicate k [1, 1] }))

/-- The part with RESET low. -/
def low : State := ready.stopPart

/-- The body that port 0 sends from buffer 0 with status code st. -/
def sends (s : State) (st : Byte) (body : List Byte) : Bool :=
  match (s.port 0).buf0 with
  | .sending r _ => r.status == st && r.body == body
  | _ => false

/-! ## Well-formedness refuses the ill-formed -/

/-- Parameters that no frame holds. -/
def long : List Byte := List.replicate 79 0

/-- Every item, two of the levels. -/
def allItems : List Item := plainItems ++ [.level 0, .level 10]

theorem test_wf_refuses_warm_scope_in_reset_port : (Instr.resetPort 0 0 0x10 [0xEF]).wf = false := by decide

theorem test_wf_1 :
    -- A request of more than 80 bytes is not well formed, in every request row.
    (([.probe 0 0 long, .status 0 0 long, .clear 0 0 long, .loaded 0 0 long, .read 0 0 long, .readStamped 0 0 long,
      .stage 0 0 long, .post 0 0 long, .armNow 0 0 1 long, .armNext 0 0 1 long, .discard 0 0 long, .groupStatus 0 0 long,
      .cycle 0 0 long, .descRead 0 0 long, .descWrite 0 0 long, .groupWrite 0 0 long, .mapRead 0 0 long,
      .mapWrite 0 0 long, .flush 0 0 long, .settingRead 0 0 long, .logRead 0 0 long, .logClear 0 0 long,
      .resetWarm 0 0 long, .resetPort 0 0 0 long, .unknownOp 0 0 0x55 long] : List Instr).all (fun c => !c.wf) = true) ∧
    -- wf refuses long setting frames
    (allItems.all (fun i => !(settingRow 0 0 0 (List.replicate 77 0) i).wf) = true) ∧
    -- wf takes longest frame
    ((Instr.probe 0 0 (List.replicate 78 0)).wf = true ∧
      (plainItems.all (fun i => (settingRow 0 0 0 (List.replicate 76 0) i).wf)) = true) ∧
    -- wf refuses listed code in unknown op
    (requestCodes.all (fun op => !(Instr.unknownOp 0 0 op []).wf) = true) := by
  decide +kernel

/-! ## Figures of the spec -/

/-- 13.4, a DESC_READ exchange: the descriptor word of the example. -/
theorem test_descriptor_of_example :
    decodeDesc 0x00020962 = some { kind := .setpoint 8, writers := 6, policy := .clamp } := by decide

theorem test_figures_1 :
    -- 8.4, Checking a CRC implementation.
    (crcOf [2, 0, 1] = 0x5A ∧ crcOf [2] = 0x1C ∧ crcOf [2, 0] = 0x45) ∧
    -- 13.4, a DESC_READ exchange: the body of the response.
    (sends (after (.descReadCompletion 0)
        (groupIn .staging [entry0]
          (asking .descRead (withSlot0 (.clean 0x00020962) (.clean 0) (.clean 0xFFF) (.clean 0) (.clean 0) ready))))
      0 [0, 2, 9, 0x62, 0, 0, 0, 0, 0, 0, 0x0F, 0xFF, 0x81] = true) ∧
    -- A PROBE frame received character by character is answered (8.3, 9.4).
    (sends (([0x5B, 2, 0, 1, 0x5A] : List Byte).foldl
        (fun s d => after (.characterArrival 0 d false true true) (after (.startBit 0) s)) ready)
      0 [0xB6, 4, 0x40, 1, 0, 1] = true) ∧
    -- Codes that no layout defines are refused (R178).
    (decodeDesc 3 ≠ none ∧ decodeDesc 0x00030000 = none ∧ decodeDesc 4 = none ∧ decodeDesc 2 = none ∧ decodeDesc 0x100 = none ∧
      decodeControl 0x80 = none ∧ decodeEntry 0 = none ∧ itemOfCode 0x3B = none ∧ scopeOf 4 = none) := by
  decide +kernel

/-! ## One step of each row -/

theorem test_rows_1 :
    -- disturbance
    ((after (.disturbance 0 .live) point).word 0 .live = .correctable 5) ∧
    -- start bit
    (((after (.startBit 0) ready).port 0).rx = .taking) ∧
    -- gap expiry
    (((after (.gapExpiry 0) (ready.updPort 0 (fun p => p.inFrame .length))).port 0).linkErrors = 4) ∧
    -- last byte
    (((after (.lastByteLeaves 0) (answering .idle ready)).port 0).buf0 = .free) ∧
    -- reset line low
    ((after .resetLineLow ready).resetLow = true) ∧
    -- cold reset
    (((after (.coldReset 4) low).port 2).supervisor = true) ∧
    -- load edge
    ((after (.loadEdge .falling) { ready with dev := { ready.dev with source := .lineFall } }).cycleNumber = 1) := by
  decide +kernel

theorem test_rows_2 :
    -- cycle timer
    ((after .cycleTimerExpiry { ready with cycleTimer := some 1000 }).cycleNumber = 1) ∧
    -- hold expires
    (sends (after (.holdTimerExpiry 0) (holding false (some 50))) 0 [11, 0xFF, 0xFF, 0xFF, 0xFF] = true) ∧
    -- scrub expiry
    ((after .scrubTimerExpiry { ready with scrubTimer := some 64, patrol := 7 }).inFlight 3 =
      some { who := .scrub, slot := 7, act := .scrub, dropped := false }) ∧
    -- read staged
    (sends (after (.readCompletion 0)
        (reading (groupIn .staging [entry0]
          (withSlot0 (.clean descClamp) (.clean 0) (.clean 4095) (.clean 5) (.correctable 9) ready))))
      0 [0x30, 0, 0, 0, 9] = true) ∧
    -- stage clamped
    (let s := after (.stageCompletion 0) (staging 0x7FFFFFFF none point)
    sends s 0 [1] = true ∧ s.word 0 .staged = .clean 4095 ∧ (s.group 0).state = .staging ∧ s.freeList.length = 511) ∧
    -- post reading
    (let s := after (.postCompletion 0)
      (posting 0xFF (some 0x0F) (withSlot0 (.clean 0xF1) (.clean 0) (.clean 0) (.clean 0x50) (.clean 0) ready))
    sends s 0 [0] = true ∧ s.word 0 .live = .clean 0x5F) ∧
    -- desc write
    ((after (.descWriteCompletion 0) (asking (.descWrite 0xF1 1 2) point)).word 0 .high = .clean 2) := by
  decide +kernel

theorem test_rows_3 :
    -- map fill
    (let s := after (.mapFillCompletion 0)
      (executing (.waiting (.fill (run (.read false)) 0))
        ((busy (.ce 0) (.mapFill 0 true) (withSlot0 (.clean 0) (.clean 0) (.clean 0) (.clean 0x80000102) (.clean 0) ready)).updPort 0
          (fun p => { p with cfg := { p.cfg with viewSize := 1 } })))
    (s.port 0).cache = [{ logical := 0, page := 2, rights := 1 }] ∧
      s.bank 0 = { s.bank 0 with
        phase := .busy { who := .ce 0, slot := 32, act := .read false, dropped := false } }) ∧
    -- map read
    (sends (after (.mapReadCompletion 0)
        (asking .mapRead (withSlot0 (.clean 0) (.clean 0) (.clean 0) .uncorrectable (.clean 0) ready))) 9 [] = true) ∧
    -- map write
    ((after (.mapWriteCompletion 0) (asking (.mapWrite 2 5 0x80000102) ready)).word 0 .live = .clean 0x80000102) ∧
    -- transfer
    (let s := after (.transferCompletion 0) loadingLast
    s.word 0 .live = .clean 9 ∧ (s.group 0).state = .empty ∧ s.engine = none) ∧
    -- scrub
    (let s := after (.scrubCompletion 0)
      (busy .scrub .scrub (withSlot0 (.correctable 3) .uncorrectable (.clean 0) (.clean 0) (.clean 0) ready))
    s.word 0 .desc = .clean 3 ∧ s.patrol = 1 ∧
      s.log = { corrected := some { slot := 0, word := .desc, source := .scrub },
                uncorrectable := some { slot := 0, word := .low, source := .scrub }, updated := true }) ∧
    -- fill
    (((after (.fillCompletion 2) State.reset).bank 2).fillRow = 1) ∧
    -- status
    (sends (after (.status 0 9 []) ready) 0 [0, 0, 1, 15, 0, 0, 0, 0, 0, 0, 0, 0, 0, 2, 0, 0, 0, 0] = true) := by
  decide +kernel

theorem test_rows_4 :
    -- clear
    (((after (.clear 0 9 [0x3F, 7, 0xEB]) ready).port 0).sticky = 0) ∧
    -- clear refuses derived
    (sends (after (.clear 0 9 [0, 0, 4]) ready) 3 [] = true) ∧
    -- loaded
    (sends (after (.loaded 0 9 []) (ready.updPort 0 (fun p => { p with loaded := 0x8000000000000002 }))) 0 [2, 1, 63] = true) ∧
    -- read unmapped
    (sends (after (.read 0 9 [0, 0, 1]) ready) 0 [5, 0xFF, 0xFF, 0xFF, 0xFF, 5, 0xFF, 0xFF, 0xFF, 0xFF] = true) ∧
    -- read stamped unmapped
    (sends (after (.readStamped 0 9 [0, 0, 0]) ready) 0 [5, 0xFF, 0xFF, 0xFF, 0xFF, 0, 0xFF, 0xFF] = true) ∧
    -- stage length
    (sends (after (.stage 0 9 [0, 0, 1, 1, 2, 3, 4]) ready) 3 [] = true) ∧
    -- post unmapped
    (sends (after (.post 0 9 [0, 0, 0, 1, 2, 3, 4]) ready) 0 [5] = true) := by
  decide +kernel

theorem test_rows_5 :
    -- arm now
    ((after (.armNow 0 9 1 []) (groupIn .staging [entry0] ready)).engine = some 0) ∧
    -- arm next
    (((after (.armNext 0 9 1 []) (groupIn .staging [entry0] ready)).group 0).state = .armed) ∧
    -- discard
    ((after (.discard 0 9 [1]) (groupIn .staging [entry0] { ready with freeList := [] })).freeList = [0]) ∧
    -- group status
    (sends (after (.groupStatus 0 9 [63]) ready) 0 [63, 0, 15, 0, 0, 0, 0, 0, 0, 0, 0, 0, 0, 0, 0xFF, 0xFF] = true) ∧
    -- cycle
    (sends (after (.cycle 0 9 []) ready) 0 [0, 1] = true) ∧
    -- desc read
    (((after (.descRead 0 9 [0x0E, 0xFF]) ready).bank 3).phase =
      .busy { who := .ce 0, slot := 3839, act := .descRead, dropped := false }) ∧
    -- desc write range
    (sends (after (.descWrite 0 9 [0, 0, 0, 1, 0, 1, 0, 0, 0, 1, 0, 0, 0, 0]) ready) 8 [] = true) := by
  decide +kernel

theorem test_rows_6 :
    -- group write
    ((after (.groupWrite 0 9 [1, 1, 5]) ready).group 0 =
    { mode := .cyclic, armSet := 5, state := .empty, list := [], lastLoad := none }) ∧
    -- map read request
    (((after (.mapRead 0 9 [3, 63]) ready).bank 3).phase =
      .busy { who := .ce 0, slot := 4095, act := .mapRead, dropped := false }) ∧
    -- map write range
    (sends (after (.mapWrite 0 9 [3, 63, 0x80, 0, 0, 240]) ready) 8 [] = true) ∧
    -- flush
    (((after (.flush 0 9 [2]) (ready.updPort 2 (fun p => { p with cache := [{ logical := 0, page := 0, rights := 1 }] }))).port
      2).cache = []) ∧
    -- setting read
    (sends (after (.settingRead 0 9 [6, 0]) ready) 0 [6, 0, 3, 0xE8] = true) ∧
    -- settings read back
    (allItems.all (fun i =>
      let s := after (settingRow 0 9 0 (itemValueBytes i 2 ++ (if i = .crcEnforcement then [0xFE] else [])) i) ready
      s.itemBytes 0 i == (if i.inRange 2 then itemValueBytes i 2 else ready.itemBytes 0 i)) = true) ∧
    -- log read
    (sends (after (.logRead 0 9 []) ready) 0 [0, 0, 0, 0, 0, 0, 0, 0, 0] = true) := by
  decide +kernel

theorem test_rows_7 :
    -- log clear
    ((after (.logClear 0 9 []) { ready with log := { ready.log with updated := true } }).log.updated = false) ∧
    -- reset warm
    (((after (.resetWarm 0 9 [0xEF]) ready).port 0).ce = .resetWait .zero .warm) ∧
    -- reset port
    (((after (.resetPort 0 9 2 [0xFD]) ready).port 0).ce = .resetWait .zero (.port 2)) ∧
    -- line return high
    (((after (.lineReturnHigh 0) (ready.updPort 0 (fun p => { p with rx := .waitHigh }))).port 0).rx = .looking) ∧
    -- line return high on a disabled link
    (((after (.lineReturnHigh 0) (ready.updPort 0 (fun p =>
      { p with cfg := { p.cfg with linkOn := false }, rx := .waitHigh }))).port 0).rx = .looking) ∧
    -- R19, log 20: a request held back is placed when the dropped operation has completed
    (let s := after (.descRead 0 9 [0, 1]) (busyDropped 0 .descRead ready)
     s.heldBack.length = 1 ∧ s.inFlight 1 = none ∧
       (after (.descReadCompletion 0) s).heldBack = [] ∧ (after (.descReadCompletion 0) s).inFlight 0 = none ∧
       (after (.descReadCompletion 0) s).inFlight 1 = some { who := .ce 0, slot := 1, act := .descRead, dropped := false }) ∧
    -- unknown op
    (sends (after (.unknownOp 0 9 0x55 []) ready) 2 [] = true) ∧
    -- member refused
    ((match ((after (.cycle 1 9 []) ready).port 1).buf0 with
      | .sending r _ => r.status == 4 && r.body == []
      | _ => false) = true) := by
  decide +kernel

/-! ## States that meet the premises of each statement -/

theorem takes_ready : ready.takes 0 .zero := by unfold State.takes; decide +kernel

theorem test_premises_StepTakesFrontCommand : State.reset.pending = [] := rfl

theorem test_premises_CommandsLeaveTheQueue : exec .resetLineLow ready = .next low := rfl

theorem test_premises_StoppedPartTakesNoCommand :
    low.resetLow = true ∧ (Instr.probe 3 0 (List.replicate 78 0)).wf = true ∧
      (∀ slot w, Instr.probe 3 0 (List.replicate 78 0) ≠ .disturbance slot w) ∧
      Instr.probe 3 0 (List.replicate 78 0) ≠ .resetLineLow ∧ ∀ roles, Instr.probe 3 0 (List.replicate 78 0) ≠ .coldReset roles :=
  ⟨by decide +kernel, by decide +kernel, by intros; simp, by simp, by intros; simp⟩

/-- Scrub due with the patrol at a position and a mask. -/
def scrubAt (patrol : Nat) (mask : Half) : State :=
  { ready with scrubTimer := some 64, patrol := patrol, dev := { ready.dev with scrubMask := mask } }

abbrev PremisesResetLineLowStopsThePart : Prop := (State.reset.bank 3).phase = .init ∧ (ready.bank 3).phase ≠ .init

abbrev PremisesWarmResetEffect : Prop :=
    [ready, loadingLast].all (fun s =>
      let s := answering (.resetWait .zero .warm) s
      s.resetLow == false && (s.port 0).sendingBuf == some .zero && (s.port 0).ce == .resetWait .zero .warm) = true

abbrev PremisesPortResetEffect : Prop :=
    (let s := answering (.resetWait .zero (.port 3)) ready
     s.resetLow = false ∧ (s.port 0).sendingBuf = some .zero ∧ (s.port 0).ce = .resetWait .zero (.port 3)) ∧
      (1 : Port) ≠ 0 ∧
      (reading ready).inFlight 0 = some { who := .ce 0, slot := 0, act := .read true, dropped := false } ∧
      (ready.bank 0).phase = .idle

abbrev PremisesDisturbanceWorsensOneWord : Prop :=
    let s := withSlot0 (.clean 7) (.correctable 3) .uncorrectable (.clean 0) (.clean 0) ready
    Store.wf s.store = true ∧ s.word 0 .desc = .clean 7 ∧ s.word 0 .low = .correctable 3 ∧ s.word 0 .high = .uncorrectable ∧
      s.word (4095 : Fin 4096).val .staged = .clean 0 ∧ (WordName.live ≠ .staged)

abbrev PremisesCycleEventSources : Prop :=
    ready.resetLow = false ∧ ready.cycleTimer = none ∧
      { ready with cycleTimer := some 1 }.cycleTimer = some 1

abbrev CasesCycleEventOrder : Prop :=
    let armed := groupIn .armed [entry0] ready
    (armed.cycleEvent).engine = some 0 ∧ (ready.cycleEvent).engine = none ∧
      ((loadingLast.cycleEvent).port 0).sticky = 0x41 ∧
      ((groupIn .armed [entry0] { ready with engine := some 5 }).cycleEvent).loadQueue = [0]

abbrev PremisesScrubSlotChoiceNothing : Prop :=
    (busy .scrub .scrub (scrubAt 0 0)).scrubOutstanding = true ∧ (scrubAt 4095 0xFFFF).dev.scrubMask = 0xFFFF ∧
      (scrubAt 4095 0xFFFF).resetLow = false ∧ (scrubAt 4095 0xFFFF).scrubTimer = some 64 ∧
      (scrubAt 4095 0xFFFF).patrol ≤ 4095

theorem premises_met_1 :
    PremisesResetLineLowStopsThePart ∧
      PremisesWarmResetEffect ∧
      PremisesPortResetEffect ∧
      PremisesDisturbanceWorsensOneWord ∧
      PremisesCycleEventSources ∧
      CasesCycleEventOrder ∧
      PremisesScrubSlotChoiceNothing := by
  decide +kernel

theorem test_premises_ResetLineLowStopsThePart : PremisesResetLineLowStopsThePart := premises_met_1.1
theorem test_premises_WarmResetEffect : PremisesWarmResetEffect := premises_met_1.2.1
theorem test_premises_PortResetEffect : PremisesPortResetEffect := premises_met_1.2.2.1
theorem test_premises_DisturbanceWorsensOneWord : PremisesDisturbanceWorsensOneWord := premises_met_1.2.2.2.1
theorem test_premises_CycleEventSources : PremisesCycleEventSources := premises_met_1.2.2.2.2.1
theorem test_cases_CycleEventOrder : CasesCycleEventOrder := premises_met_1.2.2.2.2.2.1
theorem test_premises_ScrubSlotChoice_nothing : PremisesScrubSlotChoiceNothing := premises_met_1.2.2.2.2.2.2

theorem test_premises_ScrubSlotChoice_upward :
    let s := scrubAt 255 1
    s.scrubOutstanding = false ∧ s.patrol ≤ 256 ∧ 256 ≤ 4095 ∧ s.dev.scrubMask.getLsbD (256 / 256) = false ∧
      ∀ j, s.patrol ≤ j → j < 256 → s.dev.scrubMask.getLsbD (j / 256) = true :=
  ⟨by decide +kernel, by decide +kernel, by decide, by decide, fun j h1 h2 => by
    have h1 : 255 ≤ j := h1
    have : j = 255 := by omega
    subst this; decide⟩

theorem test_premises_ScrubSlotChoice_wrap :
    let s := scrubAt 4095 0x8000
    s.scrubOutstanding = false ∧ (∀ j, s.patrol ≤ j → j ≤ 4095 → s.dev.scrubMask.getLsbD (j / 256) = true) ∧
      s.dev.scrubMask.getLsbD (0 / 256) = false ∧ ∀ j, j < 0 → s.dev.scrubMask.getLsbD (j / 256) = true :=
  ⟨by decide +kernel, fun j h1 h2 => by
    have h1 : 4095 ≤ j := h1
    have : j = 4095 := by omega
    subst this; decide, by decide, fun j h => by omega⟩

/-- Even parity and two stop bits on link 0. -/
def evenTwo (s : State) : State := s.updPort 0 (fun p => { p with cfg := { p.cfg with parity := .even, twoStops := true } })

theorem test_premises_AssemblerTakesCharacter :
    [Assembler.hunt, .length, .body 2 1 [9], .body 80 80 [], .check 2 [9, 1]].all (fun a =>
      (taking0 a (evenTwo ready)).listens 0 && ((taking0 a (evenTwo ready)).port 0).rx == .taking) = true ∧
      ((taking0 .hunt (evenTwo ready)).port 0).accepts 0x5B true true true := by
  unfold PortState.accepts; decide +kernel

theorem test_premises_RequestRowIsFramePassage :
    let s := taking0 (.check 2 [0, 1]) ready
    frameOf (.probe 0 0 []) = some (0, [0, 1]) ∧ ([0, 1] : List Byte).length ≤ 80 ∧ s.listens 0 = true ∧
      (s.port 0).rx = .taking ∧ (s.port 0).asm = .check 2 [0, 1] ∧ (s.port 0).accepts 0x5A false true true ∧
      ((s.port 0).cfg.crcOn = true → (0x5A : Byte) = crcOf [2, 0, 1]) := by
  unfold PortState.accepts; decide +kernel

theorem test_premises_LastByteFreesBuffer_noReset (scope : ResetScope) (r : Response) (form : CharForm) :
    ((answering .idle ready).port 0).ce ≠ .resetWait .zero scope ∧
      ((answering .idle ready).port 0).buf .one ≠ .sending r form := by
  have h1 : ((answering .idle ready).port 0).ce = .idle := by decide +kernel
  have h2 : ((answering .idle ready).port 0).buf .one = .free := by decide +kernel
  rw [h1, h2]; simp

/-- A value at the upper end of each item's range. -/
def topValue : Item → BitVec 64
  | .repairPolicy => 1
  | .scrubGuarantee => 8
  | .scrubInterval => 0xFFFF
  | .scrubMask => 0xFFFF
  | .cycleSource => 3
  | .cyclePeriod => 0xFFFF
  | .poolLow => 511
  | .viewSize => 64
  | .parity => 2
  | .stopBits => 2
  | .rateDivisor => 255
  | .gapCount => 255
  | .crcEnforcement => 1
  | .linkEnable => 1
  | .watchSet => 0xFFFFFFFFFFFFFFFE
  | .holdLimit => 255
  | .holdAction => 1
  | .level _ => 7

/-- Parameters that decode, for every request code. -/
def samples : List (Byte × List Byte) :=
  [(0x01, []), (0x02, []), (0x03, [0x3F, 7, 0xEB]), (0x04, []), (0x10, [0xFF, 0xFF, 0x5F]), (0x11, [0, 0, 0]),
   (0x12, 0 :: 0 :: 0x3F :: List.replicate 68 1), (0x13, [0, 0, 0, 1, 2, 3, 4]), (0x20, [63, 1]), (0x21, [1]),
   (0x22, [63]), (0x23, []), (0x30, [0x0E, 0xFF]), (0x31, [0, 0, 0, 2, 63, 0xF2, 0, 0, 0, 0, 0, 0, 0, 0]),
   (0x32, [1, 1, 15]), (0x38, [3, 63]), (0x39, [0, 0, 0x80, 0, 7, 239]), (0x3A, [3]), (0x40, [0x3A, 3]),
   (0x41, [0x15, 3, 1, 0xFE]), (0x41, [0x20, 0, 0x80, 0, 0, 0, 0, 0, 0, 0]), (0x41, [0x07, 0, 1, 0xFF]), (0x42, []),
   (0x43, []), (0x4F, [0x10, 0xEF]), (0x20, [1, 0]), (0x32, [63, 0, 0]), (0x38, [0, 0]), (0x39, [3, 63, 0x7F, 0xFF, 0xFF, 0xFF]),
   (0x40, [0x07, 0]), (0x41, [0x15, 3, 1, 0]), (0x4F, [3, 0])]

/-- Parameters with one field just out of its range, for every request code that has such a field. -/
def outOfRange : List (Byte × List Byte) :=
  [(0x01, [0]), (0x03, [0x40, 0, 0]), (0x03, [0, 8, 0]), (0x03, [0, 0, 0x10]), (0x10, [0, 0, 0x80]), (0x11, [0, 0, 0x20]),
   (0x12, [0, 0, 0x40, 1, 2, 3, 4]), (0x13, [0, 0, 1, 1, 2, 3, 4]), (0x20, [0, 1]), (0x20, [64, 1]), (0x20, [1, 2]),
   (0x21, [0]), (0x22, [64]), (0x30, [0x0F, 0]), (0x31, [0, 0, 0, 3, 0, 2, 0, 0, 0, 0, 0, 0, 0, 0]), (0x32, [1, 2, 15]),
   (0x32, [1, 1, 16]), (0x38, [4, 63]), (0x38, [3, 64]), (0x39, [0, 0, 0x80, 0, 8, 0]), (0x3A, [4]), (0x40, [0x3B, 0]),
   (0x40, [0x01, 1]), (0x40, [0x10, 4]), (0x41, [0x02, 0, 3]), (0x41, [0x06, 0, 0, 0]), (0x41, [0x07, 0, 2, 0]),
   (0x41, [0x10, 0, 65]), (0x41, [0x14, 0, 11]), (0x41, [0x20, 0, 0, 0, 0, 0, 0, 0, 0, 1]), (0x41, [0x30, 0, 8]),
   (0x4F, [4, 0xFB]), (0x4F, [0x11, 0xEE])]

abbrev PremisesHoldTimerExpires : Prop :=
    [holding true (some 1), holding false (some 255), holding true none].all (fun s =>
      s.resetLow == false && match (s.port 0).ce with
        | .holding _ => true
        | _ => false) = true ∧
      ((holding true (some 1)).port 0).cfg.holdWaits = true ∧ ((holding false (some 255)).port 0).cfg.holdWaits = false

abbrev PremisesLinkLineEvents : Prop :=
    ready.listens 0 = true ∧ (ready.port 0).rx = .looking ∧ ready.resetLow = false ∧
      ((ready.updPort 0 (fun p => p.inFrame .length)).port 0).gapTimer = some 800 ∧
      ((ready.updPort 0 (fun p => { p with rx := .waitHigh })).port 0).rx = .waitHigh

abbrev PremisesFailedCharacterIsDropped : Prop :=
    [taking0 .hunt (evenTwo ready), taking0 .length (evenTwo ready)].all (fun s =>
      s.listens 0 && (s.port 0).rx == .taking) = true ∧
      (parityPasses .even 1 false && stopPasses true true true) = false ∧
      (parityPasses .even 1 true && stopPasses true true false) = false ∧
      (parityPasses .even 0xFF true && stopPasses true false false) = false

abbrev PremisesPassedFrameIsQueuedOrDropped : Prop :=
    frameOf (.probe 0 0 (List.replicate 78 0)) = some (0, 0 :: 1 :: List.replicate 78 0) ∧
      (0 :: 1 :: List.replicate 78 0 : List Byte).length ≤ 80 ∧ low.listens 0 = false ∧
      (queued 3).listens 0 = true ∧ ((queued 3).port 0).ce ≠ .idle ∧ ((queued 3).port 0).queue.length ≤ 3 ∧
      4 ≤ ((queued 4).port 0).queue.length ∧ ((queued 4).port 0).ce ≠ .idle

abbrev PremisesLastByteFreesBuffer : Prop :=
    let s := answering .idle ready
    s.resetLow = false ∧ (s.port 0).sendingBuf = some .zero ∧ (BufId.one ≠ .zero) ∧ (s.port 0).buf .one = .free ∧
      (let q := ready.updPort 0 (fun p => { p with queue := [[1, 1]] })
       (q.port 0).ce = .idle ∧ (q.port 0).queue = [[1, 1]] ∧ (q.port 0).freeBuf = some .zero) ∧
      (ready.port 0).queue = []

abbrev PremisesRequestChecksInOrder : Prop :=
    frameOf (.probe 0 9 []) = some (0, [9, 1]) ∧
      [State.reset, ready].all (fun s =>
        s.listens 0 && (s.port 0).ce == .idle && (s.port 0).queue == [] && (s.port 0).freeBuf == some .zero) = true ∧
      (Instr.unknownOp 0 9 0x55 (List.replicate 78 0)).wf = true

abbrev PremisesParameterLengthsAreExact : Prop :=
    (samples.all (fun x =>
      match requestDecoder x.1 with
      | some decode => (decode x.2).isSome
      | none => false)) = true ∧
    (allItems.all (fun i => (decodeSettingWrite (i.code :: 0 :: itemValueBytes i (topValue i) ++
      (if i = .crcEnforcement then [~~~(1 : Byte)] else []))).isSome)) = true ∧
    (outOfRange.all (fun x =>
      match requestDecoder x.1 with
      | some decode => (decode x.2).isNone
      | none => false)) = true

theorem premises_met_2 :
    PremisesHoldTimerExpires ∧
      PremisesLinkLineEvents ∧
      PremisesFailedCharacterIsDropped ∧
      PremisesPassedFrameIsQueuedOrDropped ∧
      PremisesLastByteFreesBuffer ∧
      PremisesRequestChecksInOrder ∧
      PremisesParameterLengthsAreExact := by
  decide +kernel

theorem test_premises_HoldTimerExpires : PremisesHoldTimerExpires := premises_met_2.1
theorem test_premises_LinkLineEvents : PremisesLinkLineEvents := premises_met_2.2.1
theorem test_premises_FailedCharacterIsDropped : PremisesFailedCharacterIsDropped := premises_met_2.2.2.1
theorem test_premises_PassedFrameIsQueuedOrDropped : PremisesPassedFrameIsQueuedOrDropped := premises_met_2.2.2.2.1
theorem test_premises_LastByteFreesBuffer : PremisesLastByteFreesBuffer := premises_met_2.2.2.2.2.1
theorem test_premises_RequestChecksInOrder : PremisesRequestChecksInOrder := premises_met_2.2.2.2.2.2.1
theorem test_premises_ParameterLengthsAreExact : PremisesParameterLengthsAreExact := premises_met_2.2.2.2.2.2.2

theorem test_premises_ClearAndLoadedRows :
    (0x7EB : BitVec 11).getLsbD 2 = false ∧ (0x7EB : BitVec 11).getLsbD 4 = false ∧
      (0 : BitVec 11).getLsbD 2 = false ∧ (0 : BitVec 11).getLsbD 4 = false := by decide

theorem takes_groupIn (st : GroupState) (s : State) (h : s.takes 0 .zero) : (groupIn st [] s).takes 0 .zero := h

theorem test_premises_ArmAndDiscardRows (st : GroupState) : (groupIn st [] ready).takes 0 .zero :=
  takes_groupIn st ready takes_ready

abbrev PremisesResponseIsCompleted : Prop :=
    ((ready.taking 0 .zero).port 0).reservedBuf = some .zero ∧ (BufId.one ≠ .zero) ∧
      ((ready.taking 0 .zero).port 0).cfg.linkOn = true ∧ ((ready.taking 0 .zero).port 0).sendingBuf = none ∧
      ((ready.taking 0 .zero).port 0).filledBuf = none ∧
      (((answering .idle ready).taking 0 .one).port 0).reservedBuf = some .one ∧
      (((answering .idle ready).taking 0 .one).port 0).sendingBuf.isSome = true ∧
      (ready.port 0).reservedBuf = none ∧ (ready.port 0).cfg.linkOn = true

abbrev PremisesArmAndDiscardRowsArmSet : Prop :=
    (ready.group 0).armSet.getLsbD 0 = true ∧
      ((ready.updGroup 0 (fun r => { r with armSet := 0xE })).group 0).armSet.getLsbD 0 = false ∧
      [GroupState.empty, .staging, .armed, .queued, .loading].all (fun st =>
        ((groupIn st [] ready).group 0).state == st) = true ∧
      ready.engine = none ∧ ready.loadQueue = [] ∧ ({ ready with engine := some 5 } : State).engine ≠ none ∧
      ((groupIn .staging [entry0] ready).group 0).list = [entry0]

abbrev PremisesGroupAndCycleRows : Prop := (ready.port 0).supervisor = true

abbrev PremisesDescriptorAndMapRequests : Prop :=
    (ready.port 0).supervisor = true ∧ 3839 ≤ 3839 ∧ 63 ≤ 63 ∧
      decodeDesc descClamp = some { kind := .setpoint 0, writers := 15, policy := .clamp } ∧
      ((0x800007F0 : Value).getLsbD 31 = true → (0x800007F0 : Value).extractLsb' 11 20 = 0) ∧
      ((0x7FFFFFFF : Value).getLsbD 31 = true → (0x7FFFFFFF : Value).extractLsb' 11 20 = 0)

abbrev PremisesFlushAndLogRows : Prop :=
    ((ready.port 0).supervisor = true ∨ (3 : Port) = 0) ∧ ((ready.port 1).supervisor = true ∨ (1 : Port) = 1)

abbrev PremisesResetRequestsWaitForTheirResponse : Prop :=
    (ready.port 0).supervisor = true ∧ ((ready.taking 0 .zero).port 0).reservedBuf = some .zero

abbrev PremisesSettingRows : Prop :=
    allItems.all (fun i =>
      i.inRange (topValue i) && decide ((topValue i).toNat < 2 ^ (8 * i.len))) = true ∧
      (Item.repairPolicy.kind = .device → (0 : Port) = 0) ∧ (Item.crcEnforcement.kind = .device → (3 : Port) = 0) ∧
      ([0, 1, 0xFD, 0xFF] : List Byte).all (fun co => co != ~~~((1 : BitVec 64).setWidth 8) &&
        sends (after (.settingWriteCrcEnforcement 0 9 3 [1, co]) ready) 7 []) = true ∧
      sends (after (.settingWriteCrcEnforcement 0 9 3 [1, 0xFE]) ready) 0 [] = true

theorem premises_met_3 :
    PremisesResponseIsCompleted ∧
      PremisesArmAndDiscardRowsArmSet ∧
      PremisesGroupAndCycleRows ∧
      PremisesDescriptorAndMapRequests ∧
      PremisesFlushAndLogRows ∧
      PremisesResetRequestsWaitForTheirResponse ∧
      PremisesSettingRows := by
  decide +kernel

theorem test_premises_ResponseIsCompleted : PremisesResponseIsCompleted := premises_met_3.1
theorem test_premises_ArmAndDiscardRows_armSet : PremisesArmAndDiscardRowsArmSet := premises_met_3.2.1
theorem test_premises_GroupAndCycleRows : PremisesGroupAndCycleRows := premises_met_3.2.2.1
theorem test_premises_DescriptorAndMapRequests : PremisesDescriptorAndMapRequests := premises_met_3.2.2.2.1
theorem test_premises_FlushAndLogRows : PremisesFlushAndLogRows := premises_met_3.2.2.2.2.1
theorem test_premises_ResetRequestsWaitForTheirResponse : PremisesResetRequestsWaitForTheirResponse := premises_met_3.2.2.2.2.2.1
theorem test_premises_SettingRows : PremisesSettingRows := premises_met_3.2.2.2.2.2.2

theorem test_premises_SettingWriteEffects :
    CycleSource.timer = (if (3 : BitVec 64) = 0 then CycleSource.request else if (3 : BitVec 64) = 1 then .lineRise
      else if (3 : BitVec 64) = 2 then .lineFall else .timer) := by decide

theorem test_premises_PointRunRowsBegin :
    1 ≤ 1 ∧ 16 ≤ 16 ∧ (List.replicate 16 (0 : Value)).length = 16 ∧ ([5] : List Value).length = 1 := by decide

/-- Port 0 with a view of one page, mapped in its cache. -/
def viewed : State :=
  ready.updPort 0 (fun p =>
    { p with cfg := { p.cfg with viewSize := 1 }, cache := [{ logical := 0, page := 2, rights := 1 }] })

/-- Slot 0 with a descriptor word as given, its other words as in `point`. -/
def described (d : Stored) : State := withSlot0 d (.clean 0) (.clean 4095) (.clean 5) (.clean 0) ready

theorem test_premises_LimitsAndMerge : 0 < 32 ∧ 31 < 32 := by decide

abbrev PremisesSettingWriteReadsBack : Prop :=
    Item.poolLow.inRange 511 = true ∧ (511 : BitVec 64).toNat < 2 ^ (8 * Item.poolLow.len) ∧
      Item.watchSet.inRange (topValue .watchSet) = true ∧
      (topValue .watchSet).toNat < 2 ^ (8 * Item.watchSet.len)

abbrev PremisesPointTranslation : Prop :=
    (run (.read false)).todo = [.read false] ∧ ({ run (.read false) with todo := [] } : PointRun).todo = [] ∧
      16 * (ready.port 0).cfg.viewSize.toNat ≤ (run (.read false)).point.toNat ∧
      (15 : Half).toNat < 16 * (viewed.port 0).cfg.viewSize.toNat ∧ 16 * (viewed.port 0).cfg.viewSize.toNat ≤ (16 : Half).toNat ∧
      (viewed.port 0).cache = [{ logical := (15 : Half).toNat / 16, page := 2, rights := 1 }] ∧
      ((viewed.port 0).cache.map CacheEntry.logical).Nodup ∧
      (∀ e ∈ ((viewed.updPort 0 (fun p => { p with cache := [] })).port 0).cache, e.logical ≠ 0)

abbrev PremisesCompletionEnd : Prop := Store.wf point.store = true

abbrev PremisesReadCompletionOutcomes : Prop :=
    (reading point).inFlight 0 = some { who := .ce 0, slot := 0, act := .read true, dropped := false } ∧
      ((reading point).port 0).ce = .waiting (.access (run (.read true)) 0) ∧
      ((reading (described .uncorrectable)).word 0 .desc).yield = none ∧
      [(0, PointKind.unused), (0xF1, .reading), (descClamp, .setpoint 0), (3, .constant)].all (fun x =>
        ((reading (described (.clean x.1))).word 0 .desc).yield == some x.1 &&
          (decodeDesc x.1).any (fun d => d.kind == x.2)) = true ∧
      ((reading point).word 0 .live).yield = some 5 ∧
      ((reading (withSlot0 (.clean 0xF1) (.clean 0) (.clean 0) .uncorrectable (.clean 0) ready)).word 0 .live).yield = none ∧
      ((reading (groupIn .loading [entry0] point)).group 0).state = .loading ∧
      (reading (groupIn .staging [entry0] point)).marked 0 = true

abbrev PremisesStageCompletionOutcomes : Prop :=
    (staging 9 none point).inFlight 0 = some { who := .ce 0, slot := 0, act := .stage 9 none, dropped := false } ∧
      ((staging 9 none point).port 0).ce = .waiting (.access { run (.stage 9 none) with shape := .status } 0) ∧
      ((staging 9 none (described .uncorrectable)).word 0 .desc).yield = none ∧
      [(0, PointKind.unused), (0xF1, .reading), (descClamp, .setpoint 0), (3, .constant), (0x000201E2, .setpoint 0)].all
        (fun x => ((staging 9 none (described (.clean x.1))).word 0 .desc).yield == some x.1 &&
          (decodeDesc x.1).any (fun d => d.kind == x.2)) = true ∧
      (decodeDesc 0x000201E2).any (fun d => d.writers.getLsbD 0 == false) = true ∧
      ((staging 9 none point).word 0 .low).yield = some 0 ∧ ((staging 9 none point).word 0 .high).yield = some 4095 ∧
      ((staging 9 none (withSlot0 (.clean descClamp) .uncorrectable (.clean 0) (.clean 0) (.clean 0) ready)).word 0 .low).yield
        = none ∧
      ((staging 9 (some 3) (withSlot0 (.clean descClamp) (.clean 0) (.clean 0) .uncorrectable (.clean 0) ready)).word 0
        .live).yield = none ∧
      ((staging 9 (some 3) point).word 0 .live).yield = some 5 ∧ (5 : Value) = mergeValue 3 9 5

abbrev CasesStageCompletionOutcomes : Prop :=
    checkLimits .clamp 0 4095 4095 = .written 4095 ∧ checkLimits .clamp 0 4095 4096 = .clamped 4095 ∧
      checkLimits .refuse 0 4095 0xFFFFFFFF = .outside ∧ (groupIn .loading [entry0] point).marked 0 = true ∧
      point.marked 0 = false ∧ ({ point with freeList := [] } : State).freeList = []

abbrev PremisesPostCompletionOutcomes : Prop :=
    (posting 9 none point).inFlight 0 = some { who := .ce 0, slot := 0, act := .post 9 none, dropped := false } ∧
      ((posting 9 none point).port 0).ce = .waiting (.access { run (.post 9 none) with shape := .status } 0) ∧
      ((posting 9 none (described .uncorrectable)).word 0 .desc).yield = none ∧
      [(0, PointKind.unused), (0x000101F1, .unused), (0x000100F1, .reading), (descClamp, .setpoint 0), (3, .constant),
        (0xE1, .reading)].all
        (fun x => ((posting 9 none (described (.clean x.1))).word 0 .desc).yield == some x.1 &&
          (x.1 == 0x000101F1 || (decodeDesc x.1).any (fun d => d.kind == x.2))) = true ∧
      (decodeDesc 0xE1).any (fun d => d.writers.getLsbD 0 == false) = true ∧ (ready.port 1).supervisor = false ∧
      ((posting 9 (some 3) point).word 0 .live).yield = some 5 ∧ (5 : Value) = mergeValue 3 9 5 ∧
      ((posting 9 none (withSlot0 (.clean 0x000100F1) (.clean 0) .uncorrectable (.clean 0) (.clean 0) ready)).word 0
        .high).yield = none ∧
      ((posting 9 (some 3) (withSlot0 (.clean 0xF1) (.clean 0) (.clean 0) .uncorrectable (.clean 0) ready)).word 0
        .live).yield = none

theorem premises_met_4 :
    PremisesSettingWriteReadsBack ∧
      PremisesPointTranslation ∧
      PremisesCompletionEnd ∧
      PremisesReadCompletionOutcomes ∧
      PremisesStageCompletionOutcomes ∧
      CasesStageCompletionOutcomes ∧
      PremisesPostCompletionOutcomes := by
  decide +kernel

theorem test_premises_SettingWriteReadsBack : PremisesSettingWriteReadsBack := premises_met_4.1
theorem test_premises_PointTranslation : PremisesPointTranslation := premises_met_4.2.1
theorem test_premises_CompletionEnd : PremisesCompletionEnd := premises_met_4.2.2.1
theorem test_premises_ReadCompletionOutcomes : PremisesReadCompletionOutcomes := premises_met_4.2.2.2.1
theorem test_premises_StageCompletionOutcomes : PremisesStageCompletionOutcomes := premises_met_4.2.2.2.2.1
theorem test_cases_StageCompletionOutcomes : CasesStageCompletionOutcomes := premises_met_4.2.2.2.2.2.1
theorem test_premises_PostCompletionOutcomes : PremisesPostCompletionOutcomes := premises_met_4.2.2.2.2.2.2

/-- A fill of page 0 in flight for CE0 over a map word. -/
def filling (x : Stored) : State :=
  executing (.waiting (.fill (run (.read false)) 0))
    (busy (.ce 0) (.mapFill 0 true) (withSlot0 (.clean 0) (.clean 0) (.clean 0) x (.clean 0) ready))

/-- The same with view size 1, then port 1, a supervisor, writing port 0's view size once for each value. -/
def viewWritten (sizes : List Byte) : State :=
  sizes.foldl (fun s v => after (.settingWriteViewSize 1 9 0 [v]) s)
    (((filling (.clean 0x80000102)).updPort 0 (fun p => { p with cfg := { p.cfg with viewSize := 1 } })).updPort 1
      (fun p => { p with supervisor := true }))

/-- A view size at or below the page of a fill in flight bars its insertion, raised again or not; any other does not (R56, R63). -/
theorem test_view_size_bars_fill :
    [[], [(2 : Byte)], [0, 1], [0]].map (fun v =>
      ((after (.mapFillCompletion 0) (viewWritten v)).port 0).cache.length) = [1, 1, 0, 0] ∧
      ((viewWritten [0, 1]).port 0).cfg.viewSize = 1 ∧
      (viewWritten [0, 1]).inFlight 0 = some { who := .ce 0, slot := 0, act := .mapFill 0 false, dropped := false } := by
  decide +kernel

abbrev PremisesStagePoolMoves : Prop :=
    ready.freeList = 0 :: (List.range 511).map (· + 1) ∧
      (groupIn .staging [entry0] ready).markOf 0 = some (0, entry0) ∧ (1 : GroupId) ≠ 0

abbrev PremisesDescAndMapReadCompletions : Prop :=
    [Act.descRead, .mapRead].all (fun a =>
      ((asking a point).port 0).ce == .waiting (.single 7) &&
        (asking a point).inFlight 0 == some { who := .ce 0, slot := 0, act := a, dropped := false }) = true ∧
      [WordName.desc, .low, .high, .live].all (fun w => ((asking .descRead point).word 0 w).yield.isSome) = true ∧
      ((asking .mapRead (described .uncorrectable)).word 0 .desc).yield = none

abbrev PremisesDescAndMapWriteCompletions : Prop :=
    [Act.descWrite 0xF1 1 2, .mapWrite 3 63 0].all (fun a =>
      ((asking a point).port 0).ce == .waiting (.single 7) &&
        (asking a point).inFlight 0 == some { who := .ce 0, slot := 0, act := a, dropped := false }) = true ∧
      (asking (.descWrite 0xF1 1 2) point).markOf 0 = none ∧
      (asking (.descWrite 0xF1 1 2) (groupIn .staging [entry0] point)).markOf 0 = some (0, entry0) ∧
      (asking (.descWrite 0xF1 1 2) (groupIn .loading [entry0] point)).markOf 0 = some (0, entry0)

abbrev PremisesMapFillCompletionOutcomes : Prop :=
    (filling .uncorrectable).inFlight 0 = some { who := .ce 0, slot := 0, act := .mapFill 0 true, dropped := false } ∧
      ((filling .uncorrectable).port 0).ce = .waiting (.fill (run (.read false)) 0) ∧
      (run (.read false)).todo = [.read false] ∧ ((filling .uncorrectable).word 0 .live).yield = none ∧
      ((filling (.clean 0)).word 0 .live).yield = some 0 ∧ (0 : Value).getLsbD 31 = false ∧
      ((filling (.clean 0x800001EF)).word 0 .live).yield = some 0x800001EF ∧ (0x800001EF : Value).getLsbD 31 = true

abbrev PremisesTransferCompletionGoesOn : Prop :=
    loadingMore.inFlight 0 = some { who := .load, slot := 0, act := .transfer, dropped := false } ∧
      loadingMore.engine = some 0 ∧
      (loadingMore.group 0).list = [entry0, { entry := 1, point := 1, stager := 1 }] ∧ Store.wf loadingMore.store = true ∧
      (loadingMore.word 0 .staged).yield = some 9 ∧
      ((loadingMore.putWord 0 .staged .uncorrectable).word 0 .staged).yield = none

/-- The last TRANSFER of group 1 with CE0 holding on the group: group 6, QUEUED with an entry for slot 4, waits behind it. -/
def loadingHeld : State :=
  let h : Hold := { run := run (.read true), group := 0, slot := 1, cycle := 0xFFFF, timer := some 50 }
  let s := executing (.holding h) { loadingLast with loadQueue := [5] }
  s.updGroup 5 (fun r => { r with state := .queued, list := [{ entry := 1, point := 4, stager := 0 }] })

theorem test_premises_LastTransferEndsLoad_held :
    loadingHeld.inFlight 0 = some { who := .load, slot := 0, act := .transfer, dropped := false } ∧
      loadingHeld.engine = some 0 ∧ (loadingHeld.group 0).list = [entry0] ∧ (0 : GroupId) ∉ loadingHeld.loadQueue ∧
      Store.wf loadingHeld.store = true := by
  decide +kernel

/-- What the end of that load leaves: CE0 WAITING, its READ at bank 1 and the next load's first TRANSFER at bank 0. -/
theorem test_last_transfer_asks_held_read_again :
    let t := after (.transferCompletion 0) loadingHeld
    (t.port 0).ce = .waiting (.access (run (.read true)) 1) ∧
      t.inFlight 1 = some { who := .ce 0, slot := 1, act := .read true, dropped := false } ∧
      t.inFlight 0 = some { who := .load, slot := 4, act := .transfer, dropped := false } ∧
      t.engine = some 5 ∧ t.loadQueue = [] ∧ (t.group 5).state = .loading := by
  decide +kernel

abbrev PremisesLastTransferEndsLoad : Prop :=
    loadingLast.inFlight 0 = some { who := .load, slot := 0, act := .transfer, dropped := false } ∧
      loadingLast.engine = some 0 ∧ (loadingLast.group 0).list = [entry0] ∧ (0 : GroupId) ∉ loadingLast.loadQueue ∧
      [Stored.clean 9, .correctable 9, .uncorrectable].all (fun x =>
        (loadingLast.putWord 0 .staged x).word 0 .staged == x && Store.wf (loadingLast.putWord 0 .staged x).store) = true ∧
      ({ loadingLast with loadQueue := [7] } : State).loadQueue = [7] ∧
      (0 : GroupId) ∉ ({ loadingLast with loadQueue := [7] } : State).loadQueue

abbrev PremisesScrubAndFillCompletions : Prop :=
    (busy .scrub .scrub point).inFlight 0 = some { who := .scrub, slot := 0, act := .scrub, dropped := false } ∧
      Store.wf (busy .scrub .scrub point).store = true ∧ State.reset.resetLow = false ∧
      (State.reset.bank 3).phase = .init ∧ Store.wf State.reset.store = true ∧ (State.reset.bank 3).fillRow < 1023

theorem premises_met_5 :
    PremisesStagePoolMoves ∧
      PremisesDescAndMapReadCompletions ∧
      PremisesDescAndMapWriteCompletions ∧
      PremisesMapFillCompletionOutcomes ∧
      PremisesTransferCompletionGoesOn ∧
      PremisesLastTransferEndsLoad ∧
      PremisesScrubAndFillCompletions := by
  decide +kernel

theorem test_premises_StagePoolMoves : PremisesStagePoolMoves := premises_met_5.1
theorem test_premises_DescAndMapReadCompletions : PremisesDescAndMapReadCompletions := premises_met_5.2.1
theorem test_premises_DescAndMapWriteCompletions : PremisesDescAndMapWriteCompletions := premises_met_5.2.2.1
theorem test_premises_MapFillCompletionOutcomes : PremisesMapFillCompletionOutcomes := premises_met_5.2.2.2.1
theorem test_premises_TransferCompletionGoesOn : PremisesTransferCompletionGoesOn := premises_met_5.2.2.2.2.1
theorem test_premises_LastTransferEndsLoad : PremisesLastTransferEndsLoad := premises_met_5.2.2.2.2.2.1
theorem test_premises_ScrubAndFillCompletions : PremisesScrubAndFillCompletions := premises_met_5.2.2.2.2.2.2

/-- A bank at a grant decision with requests waiting. -/
def deciding (who : List Requester) (last : Port) (count : Nat) : Bank :=
  { phase := .idle, waiting := who.map (fun r => { who := r, slot := 0, act := .descRead, dropped := false }),
    lastGranted := last, waitCount := count, fillRow := 1024 }

theorem ready_banks (b : BankId) : ready.bank b = { Bank.cold with phase := .idle, fillRow := 1024 } := by
  revert b; decide +kernel

theorem ready_words (i : Nat) (w : WordName) : ready.word i w = .clean 0 := rfl

theorem ready_groups (g : GroupId) : ready.group g = GroupRec.cold := by
  simp [State.group, ready, State.reset]

theorem ready_engines (n : Port) : (ready.port n).ce = .idle := by revert n; decide +kernel

theorem test_premises_DescriptorsStayAdmitted : DescriptorsAdmitted ready ∧ step ready = .next ready := by
  refine ⟨⟨rfl, fun slot v hv => ?_, fun op h => ?_⟩, rfl⟩
  · rw [ready_words] at hv
    obtain rfl : 0 = v := by simpa [Stored.yield] using hv
    exact ⟨{ kind := .unused, writers := 0, policy := .none }, by decide, fun _ _ _ _ => rfl⟩
  · rcases h with h | ⟨b, h⟩
    · simp [ready, State.reset] at h
    · rw [ready_banks] at h
      simp [Bank.ops, Bank.cold] at h

theorem ready_inUse : ready.inUse = [] := by
  simp [State.inUse, ready_groups, GroupRec.cold]

theorem test_premises_LoadTablesStaySound : LoadSound ready where
  entries := by
    rw [ready_inUse, List.map_nil, List.append_nil]
    have h : ready.freeList = allEntries := by simp only [ready, State.reset]
    rw [h]
  points := by rw [ready_inUse]; exact List.nodup_nil
  counts := fun g => by rw [ready_groups]; exact ⟨fun _ => rfl, fun _ => rfl⟩
  queueOnce := List.nodup_nil
  queued := fun g => by rw [ready_groups]; simp [GroupRec.cold, ready, State.reset]
  loading := fun g => by rw [ready_groups]; simp [GroupRec.cold, ready, State.reset]
  armed := fun g h => by rw [ready_groups] at h; cases h
  idle := fun _ => rfl
  holds := fun n h e => by rw [ready_engines] at e; cases e

/-- Slot 0 staged on group 1, entry 0 taken from the pool. -/
def staged1 : State := groupIn .staging [entry0] { ready with freeList := (List.range 511).map (· + 1) }

theorem test_premises_StagePoolMoves_sound : LoadSound staged1 ∧ entry0 ∈ (staged1.group 0).list ∧ entry0.point = 0 := by
  have hu : staged1.inUse = [entry0] := by decide +kernel
  have hg : ∀ g : GroupId, ((staged1.group g).list = [] ↔ (staged1.group g).state = .empty) ∧
      (staged1.group g).state ≠ .queued ∧ (staged1.group g).state ≠ .loading ∧ (staged1.group g).state ≠ .armed := by
    decide +kernel
  refine ⟨{ entries := ?_, points := by rw [hu]; decide, counts := fun g => (hg g).1, queueOnce := List.nodup_nil,
            queued := fun g => ?_, loading := fun g => ?_, armed := fun g h => absurd h (hg g).2.2.2, idle := fun _ => rfl,
            holds := fun n h e => ?_ }, by decide +kernel, rfl⟩
  · have hf : staged1.freeList = (List.range 511).map (· + 1) := by simp only [staged1, groupIn, State.updGroup, State.setGroup]
    have ha : allEntries = [0] ++ (List.range 511).map (· + 1) := by
      rw [allEntries, List.range_succ_eq_map, List.singleton_append]
    rw [hu, hf, ha]
    exact List.perm_append_comm
  · have hq : staged1.loadQueue = [] := rfl
    rw [hq]
    exact iff_of_false List.not_mem_nil (hg g).2.1
  · have he : staged1.engine = none := rfl
    rw [he]
    exact iff_of_false (hg g).2.2.1 (by simp)
  · have hp : staged1.ports = ready.ports := rfl
    rw [State.port, hp, ← State.port, ready_engines] at e
    cases e

theorem test_premises_ArbitersStaySound : ArbiterSound ready where
  guarantee := by decide
  idle := fun b _ => by rw [ready_banks]; rfl
  home := fun b op h => by rw [ready_banks] at h; simp [Bank.ops, Bank.cold] at h
  bound := fun b => by rw [ready_banks]; decide
  claims := fun r => by simp [ready_banks, Bank.ops, Bank.cold]
  patrol := by decide
  zero := fun _ b _ => by rw [ready_banks]; rfl
  fill := fun b h => by rw [ready_banks] at h; cases h

theorem test_premises_PortsStayInBounds : CacheBounded viewed ∧ SettingsInRange ready ∧ PortsBounded ready := by
  refine ⟨?_, ?_, fun n => ?_⟩
  · unfold CacheBounded; decide +kernel
  · intro n i
    have h : ∀ n : Port, (plainItems ++ (List.finRange 11).map Item.level).all (fun i =>
        i.inRange (valueOf (ready.itemBytes n i))) = true := by decide +kernel
    have := List.all_eq_true.1 (h n) i (by cases i <;> simp [plainItems])
    exact this
  · have h : ∀ n : Port, (ready.port n).asm = .hunt ∧ (ready.port n).gapTimer = none ∧ (ready.port n).queue = [] ∧
        (ready.port n).sticky = 1 ∧ (ready.port n).loaded = 0 := by decide +kernel
    obtain ⟨h1, h2, h3, h4, h5⟩ := h n
    exact ⟨by rw [h1]; trivial, fun _ => h2, by rw [h3]; decide, by rw [h3]; simp, by rw [h4]; decide, by rw [h5]; decide⟩

theorem test_premises_CommandsComplete :
    (Instr.probe 0 0 (List.replicate 78 0)).wf = true ∧
      exec (.readCompletion 0) (reading (described (.clean 0x00030000))) = .fault (.undefinedDescriptor 0) ∧
      exec (.probe 0 0 long) ready = .refused .frameTooLong := ⟨by decide +kernel, rfl, rfl⟩

abbrev PremisesScrubAndFillCompletionsLast : Prop :=
    let s := ready.setBank 3 { Bank.cold with fillRow := 1023 }
    (s.bank 3).phase = .init ∧ 1023 ≤ (s.bank 3).fillRow ∧ (s.bank 3).waiting = [] ∧
      (∀ c, c ≠ 3 → (s.bank c).phase ≠ .init) ∧
      (let op : BankOp := { who := .ce 0, slot := 3, act := .descRead, dropped := false }
       (after (.fillCompletion 3) (s.setBank 3 { s.bank 3 with waiting := [op] })).inFlight 3 = some op) ∧
      (let u := s.setBank 2 { Bank.cold with fillRow := 5 }
       (u.bank 3).phase = .init ∧ (2 : BankId) ≠ 3 ∧ (u.bank 2).phase = .init ∧
         (after (.fillCompletion 3) u).ready = false ∧ (after (.fillCompletion 3) u).scrubTimer = none)

/-- CE0's dropped operation of bank 0. -/
def asks0 : BankOp := { who := .ce 0, slot := 0, act := .descRead, dropped := true }

/-- CE0, its earlier operation still in flight at bank 0, asks for slot 1 of bank 1 (R19). -/
def heldBack0 : State := after (.descRead 0 9 [0, 1]) (busyDropped 0 .descRead ready)

abbrev PremisesDroppedOperationKeepsItsEffects : Prop :=
    [Act.read false, .stage 9 none, .post 9 (some 3), .descRead, .descWrite 0xF1 1 2, .mapFill 63 true, .mapRead,
      .mapWrite 3 63 0].all (fun a =>
        (busyDropped 0 a point).inFlight 0 == some { who := .ce 0, slot := 0, act := a, dropped := true }) = true ∧
      (point.word 0 .desc).yield = some descClamp ∧ (decodeDesc descClamp).isSome = true ∧
      asks0 ∈ ((busyDropped 0 .descRead point).bank 0).ops ∧
      heldBack0.heldBack.filter (fun x => x.who == .ce 0) = [{ asks0 with dropped := false, slot := 1 }] ∧
      (∀ op ∈ heldBack0.heldBack, op.who ≠ .ce 1)

abbrev PremisesGrantDecision : Prop :=
    (deciding [] 3 0).waiting = [] ∧ (deciding [.load, .scrub] 3 4).waits .load = true ∧
      (deciding [.ce 0, .scrub] 3 4).waits .load = false ∧ (deciding [.ce 0, .scrub] 3 4).waits .scrub = true ∧
      4 ≤ (deciding [.ce 0, .scrub] 3 4).waitCount ∧ (deciding [.ce 0, .scrub] 3 3).waitCount < 4 ∧
      (deciding [.ce 0, .ce 2, .ce 3] 2 0).waits (.ce 3) = true ∧
      (∀ m : Port, (deciding [.ce 0, .ce 2, .ce 3] 2 0).waits (.ce m) = true →
        (3 + 3 - 2) % 4 ≤ (m.val + 3 - 2) % 4) ∧
      (deciding [.scrub] 3 0).waits .scrub = true ∧ (∀ n : Port, (deciding [.scrub] 3 0).waits (.ce n) = false) ∧
      (∀ b, (ready.bank b).ops = []) ∧ (3 : BankId).val = 4095 % 4 ∧ (0 : BankId).val = 0 % 4 ∧
      Bank.cold.phase ≠ .idle ∧ (deciding [] 3 0).phase = .idle

/-- R23's own example: after LP2, with CE0, CE2 and CE3 waiting, CE3 is granted; CE2 alone is granted. -/
abbrev GrantOfExample : Prop :=
    (deciding [.ce 0, .ce 2, .ce 3] 2 0).choice 4 = some (.ce 3) ∧ (deciding [.ce 2] 2 0).choice 4 = some (.ce 2)

abbrev PremisesRequestLayoutsRoundTrip : Prop :=
    [Request.probe, .clear 0x3F 0x7EB, .run .status 0xFFFF true (List.replicate 16 (.stage 1 (some 2))),
      .run .read 0 false [.read true], .descRead 3839, .descWrite 3839 .clamp descClamp 5 1, .mapRead 3 63,
      .mapWrite 3 63 0x800007FF, .mapWrite 0 0 0, .settingRead .repairPolicy 0, .settingRead (.level 10) 3,
      .settingWrite .crcEnforcement 3 1 false, .settingWrite .watchSet 3 (topValue .watchSet) true].all Request.wf = true

abbrev PremisesSetpointLiveIsTransferredOnly : Prop :=
    Store.wf (staging 9 none point).store = true ∧ ((staging 9 none point).word 0 .desc).yield = some descClamp ∧
      decodeDesc descClamp = some { kind := .setpoint 0, writers := 15, policy := .clamp } ∧
      (∀ b, (staging 9 none point).inFlight b = none ∨
        (staging 9 none point).inFlight b = some { who := .ce 0, slot := 0, act := .stage 9 none, dropped := false }) ∧
      ∀ b, ((staging 9 none point).bank b).phase ≠ .init

abbrev PremisesMemberRequestsChangeNoConfiguration : Prop :=
    frameOf (.settingWriteHoldAction 1 9 1 [1]) = some (1, [9, 0x41, 0x22, 1, 1]) ∧ (ready.port 1).supervisor = false ∧
      ((after (.settingWriteHoldAction 1 9 1 [1]) ready).port 1).cfg.holdWaits = true

theorem premises_met_6 :
    PremisesScrubAndFillCompletionsLast ∧
      PremisesDroppedOperationKeepsItsEffects ∧
      PremisesGrantDecision ∧
      GrantOfExample ∧
      PremisesRequestLayoutsRoundTrip ∧
      PremisesSetpointLiveIsTransferredOnly ∧
      PremisesMemberRequestsChangeNoConfiguration := by
  decide +kernel

theorem test_premises_ScrubAndFillCompletions_last : PremisesScrubAndFillCompletionsLast := premises_met_6.1
theorem test_premises_DroppedOperationKeepsItsEffects : PremisesDroppedOperationKeepsItsEffects := premises_met_6.2.1
theorem test_premises_GrantDecision : PremisesGrantDecision := premises_met_6.2.2.1
theorem test_grant_of_example : GrantOfExample := premises_met_6.2.2.2.1
theorem test_premises_RequestLayoutsRoundTrip : PremisesRequestLayoutsRoundTrip := premises_met_6.2.2.2.2.1
theorem test_premises_SetpointLiveIsTransferredOnly : PremisesSetpointLiveIsTransferredOnly := premises_met_6.2.2.2.2.2.1
theorem test_premises_MemberRequestsChangeNoConfiguration : PremisesMemberRequestsChangeNoConfiguration := premises_met_6.2.2.2.2.2.2

end Sys2Proof.Machine.Tests
end

section
/-! Family 01, the point store: a disturbance of one word (R3). -/

namespace Sys2Proof.Machine

@[simp] theorem Stored.disturbed_clean (v : Value) : (Stored.clean v).disturbed = .correctable v := rfl

@[simp] theorem Stored.disturbed_correctable (v : Value) : (Stored.correctable v).disturbed = .uncorrectable := rfl

@[simp] theorem Stored.disturbed_uncorrectable : Stored.uncorrectable.disturbed = .uncorrectable := rfl

theorem exec_disturbance (slot : Fin 4096) (w : WordName) (s : State) :
    exec (.disturbance slot w) s = .next (s.putWord slot.val w (s.word slot.val w).disturbed) := rfl

namespace State

/-- The frame of a word put in place: nothing of the state but its store has moved. -/
theorem putWord_store_only (s : State) (i : Nat) (w : WordName) (y : Stored) :
    { s.putWord i w y with store := s.store } = s := rfl

end State

/-- Settles O8: the next state puts the disturbed word in place, so the store's read-after-write rules give the word
itself and every other word, and the frame is that of `putWord`. -/
theorem disturbanceWorsensOneWord : Obligations.DisturbanceWorsensOneWord := by
  intro slot w s canonical
  have hword : (s.putWord slot.val w (s.word slot.val w).disturbed).word slot.val w = (s.word slot.val w).disturbed :=
    s.word_putWord_self slot.val w _ canonical
  refine ⟨_, exec_disturbance slot w s, ?clean, ?correctable, ?uncorrectable, ?otherWords, ?frame⟩
  case clean => intro v hv; rw [hword, hv, Stored.disturbed_clean]
  case correctable => intro v hv; rw [hword, hv, Stored.disturbed_correctable]
  case uncorrectable => intro hu; rw [hword, hu, Stored.disturbed_uncorrectable]
  case otherWords =>
    intro i x hne
    exact s.word_putWord_of_ne slot.val i w x _ (hne.imp Ne.symm Ne.symm)
  case frame => exact s.putWord_store_only slot.val w _

end Sys2Proof.Machine
end

section
/-! Family 02, the bank arbiters: which waiting requester is granted, what a grant changes, and where a request is placed
(R19 to R23). -/

namespace Sys2Proof.Machine

/-! ### The rotation of the ports -/

/-- The place of a port in the rotation after the last-granted one, which comes last itself (R23). -/
def placeInRotation (last n : Port) : Nat := (n.val + 3 - last.val) % 4

theorem placeInRotation_lt (last n : Port) : placeInRotation last n < (rotationAfter last).length :=
  Nat.mod_lt _ (by decide)

theorem rotationAfter_getElem_place (last n : Port) :
    (rotationAfter last)[placeInRotation last n]'(placeInRotation_lt last n) = n := by
  revert last n; decide

theorem placeInRotation_rotationAfter_getElem (last : Port) (j : Nat) (hj : j < (rotationAfter last).length) :
    placeInRotation last (rotationAfter last)[j] = j := by
  have at_each_place : ∀ (last : Port) (j : Fin 4), placeInRotation last ((rotationAfter last).get j) = j.val := by decide
  exact at_each_place last ⟨j, hj⟩

/-- A search along the rotation finds the port of least place among those that qualify. -/
theorem find?_rotationAfter {p : Port → Bool} {last n : Port} (hn : p n = true)
    (least : ∀ m, p m = true → placeInRotation last n ≤ placeInRotation last m) :
    (rotationAfter last).find? p = some n := by
  refine List.find?_eq_some_iff_getElem.2 ⟨hn, placeInRotation last n, placeInRotation_lt last n,
    rotationAfter_getElem_place last n, fun j hj => ?_⟩
  have earlier : ¬ p ((rotationAfter last)[j]'(hj.trans (placeInRotation_lt last n))) = true := by
    intro hp
    have := least _ hp
    rw [placeInRotation_rotationAfter_getElem] at this
    omega
  simpa using earlier

namespace Bank

/-! ### Who waits -/

theorem waits_iff (b : Bank) (r : Requester) : b.waits r = true ↔ ∃ op ∈ b.waiting, op.who = r := by simp [waits]

theorem waits_of_waiting_nil {b : Bank} (h : b.waiting = []) (r : Requester) : b.waits r = false := by simp [waits, h]

/-- Taking a request out of the waiting ones leaves every other requester as it was. -/
theorem waits_erase_of_ne (b : Bank) {op : BankOp} {r : Requester} (h : op.who ≠ r) :
    waits { b with waiting := b.waiting.erase op } r = b.waits r := by
  rw [Bool.eq_iff_iff, waits_iff, waits_iff]
  refine exists_congr fun x => and_congr_left fun hx => List.mem_erase_of_ne ?_
  rintro rfl
  exact h hx

/-! ### What a grant changes (R23, second table) -/

theorem grant_load (b : Bank) {op : BankOp} (h : op.who = .load) : b.grant op = { b with phase := .busy op } := by
  simp only [grant, h]

theorem grant_scrub (b : Bank) {op : BankOp} (h : op.who = .scrub) :
    b.grant op = { b with phase := .busy op, waitCount := 0 } := by
  simp only [grant, h]

theorem grant_ce (b : Bank) {op : BankOp} {n : Port} (h : op.who = .ce n) :
    b.grant op = { b with
      phase := .busy op, lastGranted := n, waitCount := if b.waits .scrub then b.waitCount + 1 else b.waitCount } := by
  simp only [grant, h]

/-! ### The choice of the requester (R23, first table) -/

theorem choice_load (k : Nat) {b : Bank} (h : b.waits .load = true) : b.choice k = some .load := by
  simp [choice, h]

theorem choice_scrub_of_reached {k : Nat} {b : Bank} (hl : b.waits .load = false) (hs : b.waits .scrub = true)
    (hk : k ≤ b.waitCount) : b.choice k = some .scrub := by
  simp [choice, hl, hs, hk]

/-- While the wait count is below K the scrub engine has no precedence over the ports. -/
theorem scrub_not_first {k : Nat} {b : Bank} (below : b.waits .scrub = true → b.waitCount < k) :
    (b.waits .scrub && decide (k ≤ b.waitCount)) = false := by
  simpa using below

theorem choice_ce {k : Nat} {b : Bank} {n : Port} (hl : b.waits .load = false)
    (below : b.waits .scrub = true → b.waitCount < k) (hn : b.waits (.ce n) = true)
    (least : ∀ m : Port, b.waits (.ce m) = true → placeInRotation b.lastGranted n ≤ placeInRotation b.lastGranted m) :
    b.choice k = some (.ce n) := by
  simp [choice, hl, scrub_not_first below, find?_rotationAfter (p := fun n => b.waits (.ce n)) hn least]

theorem choice_of_no_ce {k : Nat} {b : Bank} (hl : b.waits .load = false)
    (below : b.waits .scrub = true → b.waitCount < k) (hc : ∀ n : Port, b.waits (.ce n) = false) :
    b.choice k = if b.waits .scrub then some .scrub else none := by
  have no_port : (rotationAfter b.lastGranted).find? (fun n => b.waits (.ce n)) = none := by simp [hc]
  simp [choice, hl, scrub_not_first below, no_port]

theorem choice_scrub_of_no_ce {k : Nat} {b : Bank} (hl : b.waits .load = false)
    (below : b.waits .scrub = true → b.waitCount < k) (hs : b.waits .scrub = true)
    (hc : ∀ n : Port, b.waits (.ce n) = false) : b.choice k = some .scrub := by
  rw [choice_of_no_ce hl below hc, if_pos hs]

theorem choice_of_waiting_nil (k : Nat) {b : Bank} (h : b.waiting = []) : b.choice k = none := by
  have no_one := waits_of_waiting_nil h
  rw [choice_of_no_ce (no_one .load) (by simp [no_one]) fun n => no_one (.ce n)]
  simp [no_one]

/-! ### The grant decision (R22) -/

theorem grantNext_of_choice_none {k : Nat} {b : Bank} (h : b.choice k = none) :
    b.grantNext k = { b with phase := .idle } := by
  simp only [grantNext, h]

/-- The requester chosen is granted the request of its own that it has waiting. -/
theorem grantNext_of_choice {k : Nat} {b : Bank} {r : Requester} {op : BankOp} (hc : b.choice k = some r)
    (hf : b.waiting.find? (fun x => x.who == r) = some op) :
    op.who = r ∧ b.grantNext k = grant op { b with waiting := b.waiting.erase op } :=
  ⟨by simpa using List.find?_some hf, by simp only [grantNext, hc, hf]⟩

theorem grantNext_load {k : Nat} {b : Bank} {op : BankOp} (hc : b.choice k = some .load)
    (hf : b.waiting.find? (fun x => x.who == .load) = some op) :
    b.grantNext k = { b with phase := .busy op, waiting := b.waiting.erase op } := by
  obtain ⟨hw, hg⟩ := grantNext_of_choice hc hf
  rw [hg, grant_load _ hw]

theorem grantNext_scrub {k : Nat} {b : Bank} {op : BankOp} (hc : b.choice k = some .scrub)
    (hf : b.waiting.find? (fun x => x.who == .scrub) = some op) :
    b.grantNext k = { b with phase := .busy op, waiting := b.waiting.erase op, waitCount := 0 } := by
  obtain ⟨hw, hg⟩ := grantNext_of_choice hc hf
  rw [hg, grant_scrub _ hw]

/-- Whether the scrub engine waits is the same before and after the port's request is taken out. -/
theorem grantNext_ce {k : Nat} {b : Bank} {n : Port} {op : BankOp} (hc : b.choice k = some (.ce n))
    (hf : b.waiting.find? (fun x => x.who == .ce n) = some op) :
    b.grantNext k = { b with
      phase := .busy op, waiting := b.waiting.erase op, lastGranted := n
      waitCount := if b.waits .scrub then b.waitCount + 1 else b.waitCount } := by
  obtain ⟨hw, hg⟩ := grantNext_of_choice hc hf
  have scrub_same : waits { b with waiting := b.waiting.erase op } .scrub = b.waits .scrub :=
    b.waits_erase_of_ne (by simp [hw])
  rw [hg, grant_ce _ hw, scrub_same]

/-! ### The arrival of a request (R20) -/

theorem arrive_of_not_idle {b : Bank} (op : BankOp) (h : b.phase ≠ .idle) :
    b.arrive op = { b with waiting := b.waiting ++ [op] } := by
  unfold arrive
  split
  · next hi => exact absurd hi h
  · rfl

theorem arrive_of_idle {b : Bank} (op : BankOp) (h : b.phase = .idle) : b.arrive op = b.grant op := by
  simp only [arrive, h]

/-- With nothing waiting a port's grant leaves the wait count, since no scrub request is passed over. -/
theorem grant_ce_of_waiting_nil {b : Bank} {op : BankOp} {n : Port} (hw : op.who = .ce n) (h : b.waiting = []) :
    b.grant op = { b with phase := .busy op, lastGranted := n } := by
  simp [b.grant_ce hw, waits_of_waiting_nil h]

/-! ### Requests outstanding (R19) -/

/-- A requester has a request outstanding at a bank when one of the bank's operations is its own. -/
theorem claimedBy_iff (b : Bank) (r : Requester) : b.claimedBy r = true ↔ ∃ op ∈ b.ops, op.who = r := by
  unfold claimedBy ops
  cases b.phase <;> simp [waits_iff, or_comm]

end Bank

namespace State

theorem outstanding_iff (s : State) (r : Requester) :
    s.outstanding r = true ↔ ∃ b, ∃ op ∈ (s.bank b).ops, op.who = r := by
  have every_bank (b : BankId) : b ∈ [(0 : BankId), 1, 2, 3] := by revert b; decide
  simp only [outstanding, List.any_eq_true, every_bank, true_and, Bank.claimedBy_iff]

/-- A requester with nothing outstanding places its request at the arbiter of its slot's bank, and nothing else changes. -/
theorem place_eq_setBank {s : State} {op : BankOp} {c : BankId} (free : ∀ b, ∀ x ∈ (s.bank b).ops, x.who ≠ op.who)
    (hc : c.val = op.slot % 4) : s.place op = s.setBank c ((s.bank c).arrive op) := by
  have hfree : s.outstanding op.who = false := by
    rw [← Bool.not_eq_true, outstanding_iff]
    rintro ⟨b, x, hx, hw⟩
    exact free b x hx hw
  obtain rfl : bankOf op.slot = c := Fin.ext hc.symm
  exact s.place_of_free op hfree

end State

/-- Settles O51: the first table of R23 fixes the requester in each case, the second what its grant changes; an arrival at an
IDLE bank is such a grant, and a request with no other outstanding is an arrival at its slot's bank. -/
theorem grantDecision : Obligations.GrantDecision := by
  refine ⟨fun k b => ⟨?nothing, ?load, ?scrubReached, fun hl below => ⟨?port, ?scrubLast⟩⟩,
    fun s op c free hc => State.place_eq_setBank free hc, fun b op => ⟨b.arrive_of_not_idle op, ?arriveIdle⟩⟩
  case nothing => intro h; exact Bank.grantNext_of_choice_none (Bank.choice_of_waiting_nil k h)
  case load => intro hl op hf; exact Bank.grantNext_load (Bank.choice_load k hl) hf
  case scrubReached => intro hl hs hk op hf; exact Bank.grantNext_scrub (Bank.choice_scrub_of_reached hl hs hk) hf
  case port => intro n hn least op hf; exact Bank.grantNext_ce (Bank.choice_ce hl below hn least) hf
  case scrubLast => intro hs hc op hf; exact Bank.grantNext_scrub (Bank.choice_scrub_of_no_ce hl below hs hc) hf
  case arriveIdle =>
    intro hi hn
    rw [Bank.arrive_of_idle op hi]
    cases hw : op.who with
    | load => exact b.grant_load hw
    | scrub => exact b.grant_scrub hw
    | ce n => exact Bank.grant_ce_of_waiting_nil hw hn

end Sys2Proof.Machine
end

section
/-! Family 06, cycle events: the four steps of R95, each with what it changes and what it leaves, and the event as their
chain. -/

namespace Sys2Proof.Machine

namespace State

/-! ### Steps 1 and 2: the cycle number and the overrun -/

theorem countCycle_frame (s : State) :
    s.countCycle = { s with cycleNumber := s.cycleNumber + 1, ports := s.countCycle.ports } := by
  unfold countCycle
  split <;> rfl

/-- The overrun is raised unless the engine is IDLE and the queue empty. -/
theorem port_countCycle (s : State) (n : Port) :
    s.countCycle.port n =
      if s.engine = none ∧ s.loadQueue = [] then s.port n else (s.port n).raise .cycleOverrun := by
  have overrun_iff : (s.engine.isSome || !s.loadQueue.isEmpty) = true ↔ ¬(s.engine = none ∧ s.loadQueue = []) := by
    cases s.engine <;> simp
  unfold countCycle
  split
  · next h => rw [if_neg (overrun_iff.1 h)]; exact port_raiseAll _ _ _
  · next h => rw [if_pos (not_not.1 (mt overrun_iff.2 h))]; rfl

/-! ### Step 3: the due groups are queued -/

/-- The groups due at a cycle event, in ascending number (R95). -/
def dueGroups (s : State) : List GroupId := allGroups.filter (fun g => (s.group g).due)

theorem queueDue_eq (s : State) : s.queueDue = s.dueGroups.foldl enqueueGroup s := rfl

/-- Queueing groups one after the other changes the queue and the group records alone, and appends them in that order. -/
theorem enqueueGroups_frame (s : State) (gs : List GroupId) :
    gs.foldl enqueueGroup s =
      { s with loadQueue := s.loadQueue ++ gs, groups := (gs.foldl enqueueGroup s).groups } := by
  induction gs generalizing s with
  | nil => simp
  | cons g gs ih =>
    rw [List.foldl_cons, ih (s.enqueueGroup g)]
    simp [enqueueGroup, updGroup, setGroup]

theorem group_enqueueGroup (s : State) (g h : GroupId) :
    (s.enqueueGroup g).group h = if g = h then { s.group h with state := .queued } else s.group h :=
  group_updGroup _ _ _ _

theorem group_enqueueGroups (s : State) (gs : List GroupId) (h : GroupId) :
    (gs.foldl enqueueGroup s).group h = if h ∈ gs then { s.group h with state := .queued } else s.group h := by
  induction gs generalizing s with
  | nil => simp
  | cons g gs ih =>
    rw [List.foldl_cons, ih, group_enqueueGroup]
    by_cases hg : g = h
    · simp [hg]
    · simp [hg, Ne.symm hg]

/-- The state once a cycle event has counted and queued, before it starts a load: the due groups are those of the state
before the event. -/
theorem countCycle_queueDue_frame (s : State) :
    s.countCycle.queueDue = { s with
      cycleNumber := s.cycleNumber + 1, ports := s.countCycle.ports
      loadQueue := s.loadQueue ++ s.dueGroups, groups := s.countCycle.queueDue.groups } := by
  have due_before : s.countCycle.dueGroups = s.dueGroups := by rw [countCycle_frame]; rfl
  have queued := enqueueGroups_frame s.countCycle s.dueGroups
  rw [← due_before, ← queueDue_eq, due_before] at queued
  rw [queued, countCycle_frame]

theorem group_countCycle_queueDue (s : State) (h : GroupId) :
    s.countCycle.queueDue.group h =
      if h ∈ s.dueGroups then { s.group h with state := .queued } else s.group h := by
  rw [queueDue_eq, group_enqueueGroups, countCycle_frame]
  rfl

theorem group_state_countCycle_queueDue (s : State) (h : GroupId) :
    (s.countCycle.queueDue.group h).state = if h ∈ s.dueGroups then .queued else (s.group h).state := by
  rw [group_countCycle_queueDue, apply_ite GroupRec.state]

/-! ### Step 4: the load start -/

/-- The state with g's load started, short of its first TRANSFER (R98). -/
def loadStarted (s : State) (g : GroupId) (rest : List GroupId) : State :=
  { s with
    loadQueue := rest, engine := some g
    load := { cycle := s.cycleNumber, transferred := 0, skipped := 0, firstSkipped := none } }.updGroup g
      (fun r => { r with state := .loading })

/-- The first TRANSFER of a load is that of the head of the group's list; a group without entries has none. -/
theorem startAndPlace_of_idle {s : State} {g : GroupId} {rest : List GroupId} (idle : s.engine = none)
    (head : s.loadQueue = g :: rest) :
    s.startAndPlace =
      match (s.group g).list with
      | e :: _ => (s.loadStarted g rest).place (transferOp e)
      | [] => s.loadStarted g rest := by
  unfold startAndPlace startLoad
  simp only [idle, head]
  cases (s.group g).list <;> rfl

theorem startAndPlace_of_no_start {s : State} (none_due : s.engine = none → s.loadQueue = []) : s.startAndPlace = s := by
  unfold startAndPlace startLoad
  split
  · next idle head => rw [none_due idle] at head; cases head
  · rfl

theorem startAndPlace_cases (s : State) :
    s.startAndPlace = s ∨
      ∃ g rest, s.startAndPlace = s.loadStarted g rest ∨
        ∃ e, s.startAndPlace = (s.loadStarted g rest).place (transferOp e) := by
  cases he : s.engine with
  | some g => exact .inl (startAndPlace_of_no_start (by simp [he]))
  | none =>
    cases hq : s.loadQueue with
    | nil => exact .inl (startAndPlace_of_no_start fun _ => hq)
    | cons g rest =>
      rw [startAndPlace_of_idle he hq]
      cases (s.group g).list with
      | nil => exact .inr ⟨g, rest, .inl rfl⟩
      | cons e _ => exact .inr ⟨g, rest, .inr ⟨e, rfl⟩⟩

theorem startAndPlace_frame (s : State) :
    s.startAndPlace = { s with
      banks := s.startAndPlace.banks, heldBack := s.startAndPlace.heldBack, groups := s.startAndPlace.groups
      loadQueue := s.startAndPlace.loadQueue, engine := s.startAndPlace.engine, load := s.startAndPlace.load } := by
  obtain h | ⟨g, rest, h | ⟨e, h⟩⟩ := s.startAndPlace_cases <;> rw [h] <;> rfl

theorem group_loadStarted (s : State) (g h : GroupId) (rest : List GroupId) :
    (s.loadStarted g rest).group h = if g = h then { s.group h with state := .loading } else s.group h :=
  group_updGroup _ _ _ _

/-- A load start changes of a group record the state alone. -/
theorem group_startAndPlace (s : State) (h : GroupId) :
    ∃ st, s.startAndPlace.group h = { s.group h with state := st } := by
  have started (g : GroupId) (rest : List GroupId) :
      ∃ st, (s.loadStarted g rest).group h = { s.group h with state := st } := by
    rw [group_loadStarted]
    split <;> exact ⟨_, rfl⟩
  obtain same | ⟨g, rest, eq | ⟨e, eq⟩⟩ := s.startAndPlace_cases
  · exact ⟨_, congrArg (group · h) same⟩
  · rw [eq]; exact started g rest
  · rw [eq]; exact started g rest

/-- Where a request is placed follows from the banks and the requests held back alone (R19, R20). -/
theorem place_congr {s u : State} (op : BankOp) (banks : u.banks = s.banks) (held : u.heldBack = s.heldBack) :
    (u.place op).banks = (s.place op).banks ∧ (u.place op).heldBack = (s.place op).heldBack := by
  cases s
  cases u
  cases banks
  cases held
  exact ⟨rfl, rfl⟩

/-! ### The cycle event -/

theorem cycleEvent_frame (s : State) :
    s.cycleEvent = { s with
      cycleNumber := s.cycleNumber + 1, ports := s.countCycle.ports
      banks := s.cycleEvent.banks, heldBack := s.cycleEvent.heldBack, groups := s.cycleEvent.groups
      loadQueue := s.cycleEvent.loadQueue, engine := s.cycleEvent.engine, load := s.cycleEvent.load } := by
  have started := s.countCycle.queueDue.startAndPlace_frame
  rw [← cycleEvent] at started
  rw [started, countCycle_queueDue_frame]

theorem group_cycleEvent (s : State) (h : GroupId) :
    ∃ st, s.cycleEvent.group h = { s.group h with state := st } := by
  obtain ⟨st, hst⟩ := s.countCycle.queueDue.group_startAndPlace h
  refine ⟨st, hst.trans ?_⟩
  rw [group_countCycle_queueDue]
  split <;> rfl

theorem cycleEvent_of_idle {s : State} {g : GroupId} {rest : List GroupId} (idle : s.engine = none)
    (head : s.loadQueue ++ s.dueGroups = g :: rest) :
    s.cycleEvent =
      match (s.group g).list with
      | e :: _ => (s.countCycle.queueDue.loadStarted g rest).place (transferOp e)
      | [] => s.countCycle.queueDue.loadStarted g rest := by
  have same_list : (s.countCycle.queueDue.group g).list = (s.group g).list := by
    rw [group_countCycle_queueDue]
    split <;> rfl
  have start := startAndPlace_of_idle (s := s.countCycle.queueDue) (g := g) (rest := rest)
    (by rw [countCycle_queueDue_frame]; exact idle) (by rw [countCycle_queueDue_frame]; exact head)
  rw [same_list] at start
  exact start

theorem cycleEvent_of_no_start {s : State} (none_due : s.engine = none → s.loadQueue ++ s.dueGroups = []) :
    s.cycleEvent = s.countCycle.queueDue :=
  startAndPlace_of_no_start (by rw [countCycle_queueDue_frame]; exact none_due)

/-- A cycle event that starts no load has queued the due groups, and no more. -/
theorem cycleEvent_fields_of_no_start {s : State} (none_due : s.engine = none → s.loadQueue ++ s.dueGroups = []) :
    s.cycleEvent.engine = s.engine ∧ s.cycleEvent.loadQueue = s.loadQueue ++ s.dueGroups ∧
      s.cycleEvent.load = s.load ∧
      (∀ h, (s.cycleEvent.group h).state = if h ∈ s.dueGroups then .queued else (s.group h).state) ∧
      s.cycleEvent.banks = s.banks ∧ s.cycleEvent.heldBack = s.heldBack := by
  rw [cycleEvent_of_no_start none_due]
  refine ⟨?_, ?_, ?_, s.group_state_countCycle_queueDue, ?_, ?_⟩ <;> rw [countCycle_queueDue_frame]

/-- The load that a cycle event starts, short of its first TRANSFER. -/
theorem cycle_loadStarted_fields (s : State) (g : GroupId) (rest : List GroupId) :
    (s.countCycle.queueDue.loadStarted g rest).load =
        { cycle := s.cycleNumber + 1, transferred := 0, skipped := 0, firstSkipped := none } ∧
      (∀ h, ((s.countCycle.queueDue.loadStarted g rest).group h).state =
        if h = g then .loading else if h ∈ s.dueGroups then .queued else (s.group h).state) ∧
      (s.countCycle.queueDue.loadStarted g rest).banks = s.banks ∧
      (s.countCycle.queueDue.loadStarted g rest).heldBack = s.heldBack := by
  refine ⟨?load, fun h => ?state, ?banks, ?heldBack⟩
  case state =>
    rw [group_loadStarted, apply_ite GroupRec.state, group_state_countCycle_queueDue]
    simp only [eq_comm]
  all_goals rw [countCycle_queueDue_frame]; rfl

end State

/-- Settles O10: the event is counting, queueing and the load start in this order. Whether a load starts is decided by the
engine and by the queue with the due groups behind it, as both stood before the event. -/
theorem cycleEventOrder : Obligations.CycleEventOrder := by
  intro s due t
  refine ⟨?number, ?overrun, ?records, ?load, ?frame⟩
  case number => exact congrArg State.cycleNumber s.cycleEvent_frame
  case overrun => exact fun n => (congrArg (State.port · n) s.cycleEvent_frame).trans (s.port_countCycle n)
  case records =>
    intro h
    obtain ⟨st, hst⟩ := s.group_cycleEvent h
    rw [hst]
    exact ⟨rfl, rfl, rfl, rfl⟩
  case load =>
    split
    · next g rest idle head =>
      obtain ⟨load, states, banks, held⟩ := s.cycle_loadStarted_fields g rest
      have event : t = _ := State.cycleEvent_of_idle idle head
      split
      · next e _ hl =>
        rw [hl] at event
        rw [event]
        exact ⟨rfl, rfl, load, states, State.place_congr _ banks held⟩
      · next hl =>
        rw [hl] at event
        rw [event]
        exact ⟨rfl, rfl, load, states, banks, held⟩
    · next no_start =>
      refine State.cycleEvent_fields_of_no_start fun idle => ?_
      by_contra some_due
      obtain ⟨g, rest, head⟩ := List.exists_cons_of_ne_nil some_due
      exact no_start g rest idle head
  case frame =>
    have event : t = _ := s.cycleEvent_frame
    rw [event]
    exact ⟨rfl, rfl, rfl, rfl, rfl, rfl, rfl, rfl, rfl, rfl, rfl⟩

end Sys2Proof.Machine
end

section
/-! Family 08, the link ports: the CRC register of a frame (R127). -/

namespace Sys2Proof.Machine

/-! ### One step of the CRC register, on the register's number -/

/-- The step of R127 on numbers below 256: doubled, and with the bit of weight 256 dropped and 2Fh combined when the
register is 128 or more. -/
def crcStepNat (r : Nat) : Nat := if 128 ≤ r then (2 * r % 256) ^^^ 0x2F else 2 * r

/-- The most significant bit of a byte is 1 from 128 on. -/
theorem getLsbD_seven_iff (r : Byte) : r.getLsbD 7 = true ↔ 128 ≤ r.toNat := by
  have msb_eq : r.msb = decide (128 ≤ r.toNat) := r.msb_eq_decide
  rw [← BitVec.msb_eq_getLsbD_last, msb_eq, decide_eq_true_iff]

theorem toNat_shiftLeft_one (r : Byte) : (r <<< 1).toNat = 2 * r.toNat % 256 := by
  rw [BitVec.toNat_shiftLeft, Nat.shiftLeft_eq, pow_one, Nat.mul_comm]

theorem toNat_crcStep (r : Byte) : (crcStep r).toNat = crcStepNat r.toNat := by
  unfold crcStep crcStepNat
  by_cases top : 128 ≤ r.toNat
  · rw [if_pos ((getLsbD_seven_iff r).2 top), if_pos top, BitVec.toNat_xor, toNat_shiftLeft_one]
    rfl
  · rw [if_neg (mt (getLsbD_seven_iff r).1 top), if_neg top, toNat_shiftLeft_one]
    omega

/-! ### One byte, and the bytes of a frame -/

theorem crcByte_eq_iterate (r b : Byte) : crcByte r b = crcStep^[8] (r ^^^ b) := rfl

/-- Taking the register's number turns steps of the register into steps on numbers, however many there are. -/
theorem toNat_iterate_crcStep (k : Nat) (r : Byte) : (crcStep^[k] r).toNat = crcStepNat^[k] r.toNat :=
  Function.Semiconj.iterate_right toNat_crcStep k r

theorem toNat_crcByte (r b : Byte) : (crcByte r b).toNat = crcStepNat^[8] (r.toNat ^^^ b.toNat) := by
  rw [crcByte_eq_iterate, toNat_iterate_crcStep, BitVec.toNat_xor]

theorem crcOf_nil : crcOf [] = 0xFF := rfl

theorem crcOf_append_singleton (bs : List Byte) (b : Byte) : crcOf (bs ++ [b]) = crcByte (crcOf bs) b := by
  rw [crcOf, List.foldl_concat, crcOf]

/-- Settles O16: the register of a byte list one longer is one byte taken further, and eight steps of the register are
eight steps on its number. -/
theorem frameCrc : Obligations.FrameCrc := by
  refine ⟨?start, fun bs b => ?byte, fun r => ?wire⟩
  case start => rw [crcOf_nil]; rfl
  case byte => rw [crcOf_append_singleton]; exact toNat_crcByte (crcOf bs) b
  case wire => rfl

end Sys2Proof.Machine
end

section
/-! Family 09, the requests: the role check (R143). The model asks an item for its kind where the rule reads its code, so the
one fact to prove is that the two agree: the own-port items are those of codes 20h and above (11.2). -/

namespace Sys2Proof.Machine

/-- The codes of the levels run from 30h to 3Ah (11.2): the sum stays below 100h, so the byte does not wrap. -/
@[simp] theorem toNat_code_level (k : Fin 11) : (Item.level k).code.toNat = 0x30 + k.val := by
  have fits : 0x30 + k.val < 2 ^ 8 := by omega
  exact (BitVec.toNat_ofNat ..).trans (Nat.mod_eq_of_lt fits)

/-- The own-port items stand last in the settings table, from code 20h on (11.2). -/
theorem kind_eq_ownPort_iff (i : Item) : i.kind = .ownPort ↔ 0x20 ≤ i.code.toNat := by
  cases i with
  | level k =>
    rw [toNat_code_level]
    exact iff_of_true rfl (by omega)
  | watchSet | holdLimit | holdAction => exact iff_of_true rfl (by decide)
  | repairPolicy | scrubGuarantee | scrubInterval | scrubMask | cycleSource | cyclePeriod | poolLow | viewSize | parity |
    stopBits | rateDivisor | gapCount | crcEnforcement | linkEnable =>
    exact iff_of_false (by decide) (by decide)

/-- A SETTING_WRITE of an own-port item asks for the sender's own port, whatever its role; of any other item, for a
supervisor (R143). -/
theorem roleAllows_settingWrite (supervisor : Bool) (n : Port) (i : Item) (m : Port) (v : BitVec 64) (pairOk : Bool) :
    roleAllows supervisor n (.settingWrite i m v pairOk) = if i.kind = .ownPort then m == n else supervisor := by
  simp only [roleAllows]
  cases i.kind with
  | ownPort => rfl
  | device | supervisorPort => rfl

/-- Settles O22, request by request: SETTING_WRITE is the one row that needs an argument, since the table reads
its item's code and the check reads its kind. -/
theorem roleTable : Obligations.RoleTable := by
  intro supervisor n r
  cases r with
  | settingWrite i m v pairOk =>
    simp only [roleAllows_settingWrite, kind_eq_ownPort_iff]
  | cycle | descWrite | groupWrite | mapWrite | logClear | reset => rfl
  | flush => rfl
  | probe | status | clear | loaded | run | arm | discard | groupStatus | descRead | mapRead | settingRead | logRead => rfl

end Sys2Proof.Machine
end

section
/-! Every step: what the functions behind the moves leave as it was, and the induction that carries a property over a
step (Laws/Moves, Laws/Steps). -/

namespace Sys2Proof.Machine

/-! ### The induction over a step -/

/-- A property that every move keeps holds after a chain of moves. -/
theorem Moves.keep {P : State → Prop} (kept : ∀ {s t}, Move s t → P s → P t) {s t : State} (h : Moves s t) (hs : P s) :
    P t := by
  induction h with
  | refl => exact hs
  | tail _ move ih => exact kept move ih

theorem Quiets.keep {P : State → Prop} (kept : ∀ {s t}, Quiet s t → P s → P t) {s t : State} (h : Quiets s t) (hs : P s) :
    P t := by
  induction h with
  | refl => exact hs
  | tail _ move ih => exact kept move ih

theorem step_of_empty {s : State} (h : s.pending = []) : step s = .next s := by
  simp only [step, h]

theorem step_of_cons {s : State} {c : Instr} {rest : List Instr} (h : s.pending = c :: rest) :
    step s = exec c { s with pending := rest } := by
  simp only [step, h]

/-- A property that does not speak of the queue of commands and that every move keeps is kept by every step. -/
theorem step_keeps {P : State → Prop} (queue : ∀ s q, P s → P { s with pending := q })
    (kept : ∀ {s t}, Move s t → P s → P t) {s t : State} (h : step s = .next t) (hs : P s) : P t := by
  cases hq : s.pending with
  | nil => rw [step_of_empty hq] at h; cases h; exact hs
  | cons c rest => rw [step_of_cons hq] at h; exact (exec_moves h).keep kept (queue s rest hs)

namespace State

/-! ### Frames of the functions behind the moves -/

theorem newStage_frame (s : State) (n : Port) (p : Nat) (g : GroupId) :
    s.newStage n p g = { s with
      freeList := (s.newStage n p g).freeList, groups := (s.newStage n p g).groups
      ports := (s.newStage n p g).ports } := by
  unfold newStage
  split
  · rfl
  · dsimp only; split <;> rfl

theorem restage_frame (s : State) (n : Port) (p : Nat) :
    s.restage n p = { s with groups := (s.restage n p).groups } := by
  unfold restage
  split <;> rfl

theorem removeStage_frame (s : State) (g : GroupId) (e : StageEntry) :
    s.removeStage g e = { s with
      freeList := (s.removeStage g e).freeList, loadQueue := (s.removeStage g e).loadQueue
      groups := (s.removeStage g e).groups } := by
  unfold removeStage
  dsimp only
  split <;> rfl

theorem startLoad_frame (s : State) :
    s.startLoad.1 = { s with
      loadQueue := s.startLoad.1.loadQueue, engine := s.startLoad.1.engine, load := s.startLoad.1.load
      groups := s.startLoad.1.groups } := by
  unfold startLoad
  split <;> rfl

theorem returnHead_frame (s : State) (g : GroupId) :
    s.returnHead g = { s with freeList := (s.returnHead g).freeList, groups := (s.returnHead g).groups } := by
  unfold returnHead
  split <;> rfl

/-- The end of a load short of the next load's start: the engine IDLE, the group EMPTY with its record, watchers told and
holds ended (R100, R103). -/
def loadEnded (s : State) (g : GroupId) : State :=
  (({ s with engine := none }.updGroup g (fun r => { r with state := .empty, lastLoad := some s.loadRecord })).updAllPorts
    (PortState.notifyLoad g (s.load.skipped != 0))).updAllPorts (PortState.endHold g)

theorem endLoad_eq (s : State) (g : GroupId) :
    s.endLoad g = ((s.loadEnded g).startLoad.1, s.heldReads g ++ (s.loadEnded g).startLoad.2) := rfl

theorem endLoad_frame (s : State) (g : GroupId) :
    (s.endLoad g).1 = { s with
      engine := (s.endLoad g).1.engine, groups := (s.endLoad g).1.groups, ports := (s.loadEnded g).ports
      loadQueue := (s.endLoad g).1.loadQueue, load := (s.endLoad g).1.load } := by
  rw [endLoad_eq, startLoad_frame]
  rfl

/-- The load engine after a transfer, short of a load's end: the count and the head entry returned (R80, R99). -/
def entryDone (s : State) (g : GroupId) (p : Nat) (skip : Bool) : State :=
  { s with load := s.load.after p skip }.returnHead g

theorem transferred_of_none {s : State} (h : s.engine = none) (p : Nat) (skip : Bool) :
    s.transferred p skip = (s, []) := by
  simp only [transferred, h]

theorem transferred_of_some {s : State} {g : GroupId} (h : s.engine = some g) (p : Nat) (skip : Bool) :
    s.transferred p skip =
      match ((s.entryDone g p skip).group g).list with
      | [] => (s.entryDone g p skip).endLoad g
      | e :: _ => (s.entryDone g p skip, [transferOp e]) := by
  unfold transferred
  split
  · next hn => rw [h] at hn; cases hn
  · next g' hg => rw [h] at hg; cases hg; rfl

theorem entryDone_frame (s : State) (g : GroupId) (p : Nat) (skip : Bool) :
    s.entryDone g p skip = { s with
      load := s.load.after p skip, freeList := (s.entryDone g p skip).freeList
      groups := (s.entryDone g p skip).groups } := by
  unfold entryDone
  rw [returnHead_frame]

/-- A transfer taken, or the load ended by it. -/
theorem transferred_cases (s : State) (p : Nat) (skip : Bool) :
    (s.transferred p skip).1 = s ∨ ∃ g, s.engine = some g ∧
      ((((s.entryDone g p skip).group g).list ≠ [] ∧ (s.transferred p skip).1 = s.entryDone g p skip) ∨
       (((s.entryDone g p skip).group g).list = [] ∧
          (s.transferred p skip).1 = ((s.entryDone g p skip).loadEnded g).startLoad.1)) := by
  cases h : s.engine with
  | none => exact .inl (by rw [transferred_of_none h])
  | some g =>
    refine .inr ⟨g, rfl, ?_⟩
    rw [transferred_of_some h]
    cases hl : ((s.entryDone g p skip).group g).list with
    | nil => exact .inr ⟨rfl, rfl⟩
    | cons e more => exact .inl ⟨by simp, rfl⟩

theorem transferred_frame (s : State) (p : Nat) (skip : Bool) :
    (s.transferred p skip).1 = { s with
      load := (s.transferred p skip).1.load, freeList := (s.transferred p skip).1.freeList
      groups := (s.transferred p skip).1.groups, engine := (s.transferred p skip).1.engine
      loadQueue := (s.transferred p skip).1.loadQueue, ports := (s.transferred p skip).1.ports } := by
  obtain h | ⟨g, -, ⟨-, h⟩ | ⟨-, h⟩⟩ := s.transferred_cases p skip
  · rw [h]
  · rw [h, entryDone_frame]
  · rw [h, startLoad_frame, loadEnded, entryDone_frame]
    rfl

theorem warmReset_frame (s : State) :
    s.warmReset = { s.warmCore with ports := s.warmReset.ports } := by
  unfold warmReset
  dsimp only
  generalize s.warmCore = u
  split <;> rfl

theorem release_frame (s : State) (r : Requester) :
    s.release r = { s with banks := (s.release r).banks, heldBack := (s.release r).heldBack } := by
  obtain h | ⟨op, -, -, h⟩ := s.release_cases r
  · rw [h]
  · rw [h]; rfl

theorem writeLinkEnable_frame (s : State) (m : Port) (v : BitVec 64) :
    s.writeLinkEnable m v = { s with
      banks := (s.writeLinkEnable m v).banks, heldBack := (s.writeLinkEnable m v).heldBack
      ports := (s.writeLinkEnable m v).ports } := by
  unfold writeLinkEnable
  dsimp only
  split <;> rfl

theorem writeItem_frame (s : State) (i : Item) (m : Port) (v : BitVec 64) :
    s.writeItem i m v = { s with
      dev := (s.writeItem i m v).dev, cycleTimer := (s.writeItem i m v).cycleTimer
      scrubTimer := (s.writeItem i m v).scrubTimer, banks := (s.writeItem i m v).banks
      heldBack := (s.writeItem i m v).heldBack, ports := (s.writeItem i m v).ports } := by
  cases i with
  | linkEnable =>
    have h := s.writeLinkEnable_frame m v
    simp only [writeItem]
    rw [h]
  | _ => rfl

end State

/-! ### What no quiet move touches -/

theorem Quiet.store_pending {s t : State} (h : Quiet s t) : t.store = s.store ∧ t.pending = s.pending := by
  cases h with
  | setting i m v => rw [State.writeItem_frame]; exact ⟨rfl, rfl⟩
  | warmReset => rw [State.warmReset_frame]; exact ⟨rfl, rfl⟩
  | release r => rw [State.release_frame]; exact ⟨rfl, rfl⟩
  | restage n p => rw [State.restage_frame]; exact ⟨rfl, rfl⟩
  | newStage n p g => rw [State.newStage_frame]; exact ⟨rfl, rfl⟩
  | removeStage p g e => rw [State.removeStage_frame]; exact ⟨rfl, rfl⟩
  | queueAndStart g => rw [State.startLoad_frame]; exact ⟨rfl, rfl⟩
  | cycle => rw [State.startLoad_frame, State.countCycle_queueDue_frame]; exact ⟨rfl, rfl⟩
  | transferred p skip => rw [State.transferred_frame]; exact ⟨rfl, rfl⟩
  | _ => exact ⟨rfl, rfl⟩

theorem Quiets.store {s t : State} (h : Quiets s t) : t.store = s.store :=
  h.keep (P := fun u => u.store = s.store) (fun q hu => q.store_pending.1.trans hu) rfl

theorem Move.pending {s t : State} (h : Move s t) : t.pending = s.pending := by
  cases h with
  | quiet q => exact q.store_pending.2
  | repair i w => exact State.repairWord_pending s i w
  | _ => rfl

/-- Settles O2: every command is a chain of moves, and none of them touches the queue. -/
theorem commandsLeaveTheQueue : Obligations.CommandsLeaveTheQueue := by
  intro c s t h
  exact (exec_moves h).keep (P := fun u => u.pending = s.pending) (fun move hu => move.pending.trans hu) rfl

/-- Settles O1. -/
theorem stepTakesFrontCommand : Obligations.StepTakesFrontCommand :=
  ⟨fun _ _ _ => step_of_cons rfl, fun _ => step_of_empty⟩

end Sys2Proof.Machine
end

section
/-! The operations at a bank, waiting or in flight: what each move of an arbiter makes of them (R16, R17, R20, R22). -/

namespace Sys2Proof.Machine

namespace Bank

theorem ops_of_busy {b : Bank} {op : BankOp} (h : b.phase = .busy op) : b.ops = op :: b.waiting := by
  simp only [ops, h]

theorem ops_of_not_busy {b : Bank} (h : ∀ op, b.phase ≠ .busy op) : b.ops = b.waiting := by
  unfold ops
  split
  · next op hp => exact absurd hp (h op)
  · rfl

theorem ops_congr {b c : Bank} (hp : b.phase = c.phase) (hw : b.waiting = c.waiting) : b.ops = c.ops := by
  simp only [ops, hp, hw]

theorem waiting_subset_ops (b : Bank) : b.waiting ⊆ b.ops := by
  unfold ops
  split
  · exact List.subset_cons_self _ _
  · exact List.Subset.refl _

/-- A grant puts the operation in flight and leaves who waits. -/
theorem grant_phase_waiting (op : BankOp) (b : Bank) :
    (b.grant op).phase = .busy op ∧ (b.grant op).waiting = b.waiting ∧ (b.grant op).fillRow = b.fillRow := by
  unfold grant
  split <;> exact ⟨rfl, rfl, rfl⟩

theorem ops_grant (op : BankOp) (b : Bank) : (b.grant op).ops = op :: b.waiting := by
  obtain ⟨hp, hw, -⟩ := b.grant_phase_waiting op
  rw [ops_of_busy hp, hw]

/-- An arrival adds its request to the operations of the bank. -/
theorem ops_arrive (op : BankOp) (b : Bank) : (b.arrive op).ops.Perm (op :: b.ops) := by
  by_cases h : b.phase = .idle
  · rw [arrive_of_idle op h, ops_grant, ops_of_not_busy (by simp [h])]
  · rw [arrive_of_not_idle op h]
    unfold ops
    cases b.phase with
    | busy x => exact (List.Perm.cons x List.perm_append_comm).trans (List.Perm.swap op x _)
    | _ => exact List.perm_append_comm

/-- With no requester to choose no request waits. -/
theorem waiting_of_choice_none {k : Nat} {b : Bank} (h : b.choice k = none) : b.waiting = [] := by
  by_contra hne
  obtain ⟨op, more, hw⟩ := List.exists_cons_of_ne_nil hne
  have here : b.waits op.who = true := (b.waits_iff _).2 ⟨op, by simp [hw], rfl⟩
  have every_port (last n : Port) : n ∈ rotationAfter last := by revert last n; decide
  unfold choice at h
  split at h
  · cases h
  · next hl =>
    split at h
    · cases h
    · split at h
      · cases h
      · next hf =>
        split at h
        · cases h
        · next hs =>
          cases hr : op.who with
          | load => exact hl (hr ▸ here)
          | scrub => exact hs (hr ▸ here)
          | ce n => exact List.find?_eq_none.1 hf n (every_port _ n) (hr ▸ here)

/-- The requester chosen has a request waiting. -/
theorem waits_of_choice {k : Nat} {b : Bank} {r : Requester} (h : b.choice k = some r) : b.waits r = true := by
  unfold choice at h
  split at h
  · next hl => cases h; exact hl
  · split at h
    · next hs => cases h; exact (Bool.and_eq_true_iff.1 hs).1
    · split at h
      · next n hf => cases h; exact List.find?_some (p := fun n => b.waits (.ce n)) hf
      · split at h
        · next hs => cases h; exact hs
        · cases h

/-- The grant decision: with nothing waiting the bank is IDLE, else a waiting request of the chosen requester is granted. -/
theorem grantNext_cases (k : Nat) (b : Bank) :
    (b.waiting = [] ∧ b.grantNext k = { b with phase := .idle }) ∨
      ∃ op ∈ b.waiting, b.choice k = some op.who ∧
        b.grantNext k = grant op { b with waiting := b.waiting.erase op } := by
  cases hc : b.choice k with
  | none => exact .inl ⟨waiting_of_choice_none hc, grantNext_of_choice_none hc⟩
  | some r =>
    obtain ⟨x, hx, hxr⟩ := (b.waits_iff r).1 (waits_of_choice hc)
    cases hf : b.waiting.find? (fun y => y.who == r) with
    | none => exact absurd (by simpa using hxr) (List.find?_eq_none.1 hf x hx)
    | some op =>
      obtain ⟨hw, hg⟩ := grantNext_of_choice hc hf
      exact .inr ⟨op, List.mem_of_find?_eq_some hf, by rw [hw], hg⟩

/-- A grant decision leaves the requests that waited; the operation in flight has completed. -/
theorem ops_grantNext (k : Nat) (b : Bank) : (b.grantNext k).ops.Perm b.waiting := by
  obtain ⟨hw, h⟩ | ⟨op, hm, -, h⟩ := b.grantNext_cases k
  · rw [h, ops_of_not_busy (by simp)]
  · rw [h, ops_grant]
    exact (List.perm_cons_erase hm).symm

/-- No bank is left IDLE while a request waits, and none is INIT, after a grant decision. -/
theorem grantNext_phase (k : Nat) (b : Bank) :
    (b.grantNext k).phase ≠ .init ∧ ((b.grantNext k).phase = .idle → (b.grantNext k).waiting = []) := by
  obtain ⟨hw, h⟩ | ⟨op, -, -, h⟩ := b.grantNext_cases k
  · rw [h]; exact ⟨by simp, fun _ => hw⟩
  · rw [h, (grant_phase_waiting _ _).1]; exact ⟨by simp, by simp⟩

/-- A port reset keeps of each operation all but the mark that its result is dropped. -/
theorem mem_ops_portReset {n : Port} {b : Bank} {op : BankOp} (h : op ∈ (b.portReset n).ops) :
    ∃ x ∈ b.ops, op = x ∨ op = { x with dropped := true } := by
  have hwait : (b.portReset n).waiting = b.waiting.filter (fun x => x.who != .ce n) := rfl
  cases hp : b.phase with
  | busy x =>
    have hphase : (b.portReset n).phase = .busy (if x.who = .ce n then { x with dropped := true } else x) := by
      simp only [portReset, hp]
      split <;> rfl
    rw [ops_of_busy hphase, hwait, List.mem_cons] at h
    rw [ops_of_busy hp]
    rcases h with h | h
    · refine ⟨x, List.mem_cons_self, ?_⟩
      rw [h]
      split
      · exact .inr rfl
      · exact .inl rfl
    · exact ⟨op, List.mem_cons_of_mem _ (List.mem_of_mem_filter h), .inl rfl⟩
  | _ =>
    have hphase : (b.portReset n).phase = b.phase := by simp only [portReset, hp]
    rw [ops_of_not_busy (by rw [hphase, hp]; simp), hwait] at h
    exact ⟨op, b.waiting_subset_ops (List.mem_of_mem_filter h), .inl rfl⟩

/-- Barring a fill leaves the waiting requests, and of the operation in flight all but a fill's mark. -/
theorem ops_barFill (n : Port) (size : Nat) (b : Bank) :
    (b.barFill n size).ops = b.ops ∨
      ∃ x, b.phase = .busy x ∧ (b.barFill n size).ops = x.barFill n size :: b.waiting := by
  cases hp : b.phase with
  | busy x =>
    have hphase : (b.barFill n size).phase = .busy (x.barFill n size) := by simp only [barFill, hp]
    exact .inr ⟨x, rfl, by rw [ops_of_busy hphase]; rfl⟩
  | _ =>
    have hphase : (b.barFill n size).phase = b.phase := by simp only [barFill, hp]
    exact .inl (ops_congr hphase rfl)

theorem ops_warmReset (b : Bank) : b.warmReset.ops = [] := rfl

theorem ops_stopped (b : Bank) : b.stopped.ops = [] := by
  unfold stopped ops
  cases b.phase <;> rfl

theorem ops_cold : Bank.cold.ops = [] := rfl

end Bank

/-- Barring an operation leaves its requester and its slot, and puts no other kind of operation in its place. -/
theorem BankOp.barFill_who_slot (n : Port) (size : Nat) (op : BankOp) :
    (op.barFill n size).who = op.who ∧ (op.barFill n size).slot = op.slot ∧
      ((op.barFill n size).act = op.act ∨ ∃ l, (op.barFill n size).act = .mapFill l false) := by
  obtain h | ⟨l, _, -, -, -, h⟩ := State.barFill_cases n size op
  · rw [h]; exact ⟨rfl, rfl, .inl rfl⟩
  · rw [h]; exact ⟨rfl, rfl, .inr ⟨l, rfl⟩⟩

namespace State

theorem bank_portReset (s : State) (n : Port) (b : BankId) : (s.portReset n).bank b = (s.bank b).portReset n :=
  bank_updAllBanks _ _ _

theorem bank_warmReset (s : State) (b : BankId) : s.warmReset.bank b = (s.bank b).warmReset := by
  rw [warmReset_frame]
  exact getElem_mapAll _ _ _ _

theorem bank_stopPart (s : State) (b : BankId) : s.stopPart.bank b = (s.bank b).stopped := getElem_mapAll _ _ _ _

theorem bank_coldReset (s : State) (roles : BitVec 4) (b : BankId) : (s.coldReset roles).bank b = Bank.cold := by
  simp [coldReset, bank]

theorem bank_writeViewSize (s : State) (m : Port) (v : BitVec 64) (b : BankId) :
    (s.writeViewSize m v).bank b = (s.bank b).barFill m (v.setWidth 8 : Byte).toNat := bank_updAllBanks _ _ _

/-- A setting's write leaves the banks, or bars fills, or resets the port. -/
theorem bank_writeItem_cases (s : State) (i : Item) (m : Port) (v : BitVec 64) :
    ((s.writeItem i m v).heldBack = s.heldBack ∧ ∀ b, (s.writeItem i m v).bank b = s.bank b) ∨
    ((s.writeItem i m v).heldBack = s.heldBack ∧
      ∃ size, ∀ b, (s.writeItem i m v).bank b = (s.bank b).barFill m size) ∨
    ((s.writeItem i m v).heldBack = s.heldBack.filter (fun op => op.who != .ce m) ∧
      ∀ b, (s.writeItem i m v).bank b = (s.bank b).portReset m) := by
  cases i with
  | viewSize => exact .inr (.inl ⟨rfl, _, s.bank_writeViewSize m v⟩)
  | linkEnable =>
    simp only [writeItem, writeLinkEnable]
    split
    · exact .inl ⟨rfl, fun _ => rfl⟩
    · exact .inr (.inr ⟨rfl, s.bank_portReset m⟩)
  | _ => exact .inl ⟨rfl, fun _ => rfl⟩

end State

end Sys2Proof.Machine
end

section
/-! The store's canonical form and the admitted descriptors, kept by every step (R31, R45). -/

namespace Sys2Proof.Machine

/-! ### Where the operations of the next state come from -/

/-- The operation is at a bank, waiting or in flight, or held back. -/
def State.requested (s : State) (op : BankOp) : Prop := op ∈ s.heldBack ∨ ∃ b, op ∈ (s.bank b).ops

theorem State.requested_of_same {s t : State} (hh : t.heldBack = s.heldBack) (hb : t.banks = s.banks) {op : BankOp}
    (h : t.requested op) : s.requested op := by
  simpa only [State.requested, State.bank, hh, hb] using h

/-- Placing brings in one operation. -/
theorem State.requested_place {s : State} {op x : BankOp} (h : (s.place op).requested x) : x = op ∨ s.requested x := by
  rcases h with h | ⟨b, h⟩
  · simp only [State.place] at h
    split at h
    · rcases List.mem_append.1 h with h | h
      · exact .inr (.inl (List.mem_of_mem_filter h))
      · exact .inl (by simpa using h)
    · exact .inr (.inl h)
  · rw [State.bank_place] at h
    split at h
    · rcases List.mem_cons.1 ((Bank.ops_arrive op _).mem_iff.1 h) with h | h
      · exact .inl h
      · exact .inr (.inr ⟨b, h⟩)
    · exact .inr (.inr ⟨b, h⟩)

theorem State.requested_forget {s : State} {r : Requester} {x : BankOp} (h : (s.forget r).requested x) : s.requested x :=
  h.imp List.mem_of_mem_filter id

theorem State.requested_release {s : State} {r : Requester} {x : BankOp} (h : (s.release r).requested x) :
    s.requested x := by
  obtain e | ⟨op, hop, -, e⟩ := s.release_cases r
  · rwa [e] at h
  · rw [e] at h
    rcases State.requested_place h with rfl | h
    · exact .inl hop
    · exact State.requested_forget h

theorem State.requested_grantNext {s : State} {b : BankId} {x : BankOp} (h : (s.grantNext b).requested x) :
    s.requested x := by
  refine h.imp id fun ⟨c, hc⟩ => ⟨c, ?_⟩
  rw [State.bank_grantNext] at hc
  split at hc
  · exact Bank.waiting_subset_ops _ ((Bank.ops_grantNext _ _).mem_iff.1 hc)
  · exact hc

/-- The kinds of operation that a port reset leaves at the banks. -/
theorem State.requested_portReset {s t : State} {n : Port} (hh : t.heldBack = s.heldBack.filter (fun op => op.who != .ce n))
    (hb : ∀ b, t.bank b = (s.bank b).portReset n) {x : BankOp} (h : t.requested x) :
    ∃ y, s.requested y ∧ y.act = x.act := by
  rcases h with h | ⟨b, h⟩
  · rw [hh] at h
    exact ⟨x, .inl (List.mem_of_mem_filter h), rfl⟩
  · rw [hb] at h
    obtain ⟨y, hy, rfl | rfl⟩ := Bank.mem_ops_portReset h
    · exact ⟨x, .inr ⟨b, hy⟩, rfl⟩
    · exact ⟨y, .inr ⟨b, hy⟩, rfl⟩

theorem State.requested_barFill {s t : State} {n : Port} {size : Nat} (hh : t.heldBack = s.heldBack)
    (hb : ∀ b, t.bank b = (s.bank b).barFill n size) {x : BankOp} (h : t.requested x) :
    (∃ y, s.requested y ∧ y.act = x.act) ∨ ∃ l, x.act = .mapFill l false := by
  rcases h with h | ⟨b, h⟩
  · exact .inl ⟨x, .inl (hh ▸ h), rfl⟩
  · rw [hb] at h
    obtain e | ⟨y, hp, e⟩ := (s.bank b).ops_barFill n size
    · exact .inl ⟨x, .inr ⟨b, e ▸ h⟩, rfl⟩
    · rw [e, List.mem_cons] at h
      rcases h with rfl | h
      · obtain ⟨-, -, ha | ha⟩ := y.barFill_who_slot n size
        · exact .inl ⟨y, .inr ⟨b, by rw [Bank.ops_of_busy hp]; exact List.mem_cons_self⟩, ha.symm⟩
        · exact .inr ha
      · exact .inl ⟨x, .inr ⟨b, Bank.waiting_subset_ops _ h⟩, rfl⟩

/-- After a quiet move each operation was there before, but for a mark, or has just been placed. -/
theorem Quiet.requested {s t : State} (h : Quiet s t) {x : BankOp} (hx : t.requested x) :
    (∃ y, s.requested y ∧ y.act = x.act) ∨ x.placed s ∨ ∃ l, x.act = .mapFill l false := by
  have same (hh : t.heldBack = s.heldBack) (hb : t.banks = s.banks) :
      (∃ y, s.requested y ∧ y.act = x.act) ∨ x.placed s ∨ ∃ l, x.act = .mapFill l false :=
    .inl ⟨x, State.requested_of_same hh hb hx, rfl⟩
  cases h with
  | setting i m v =>
    obtain ⟨hh, hb⟩ | ⟨hh, size, hb⟩ | ⟨hh, hb⟩ := s.bank_writeItem_cases i m v
    · refine .inl ⟨x, hx.imp (hh ▸ ·) ?_, rfl⟩
      exact fun ⟨b, h⟩ => ⟨b, hb b ▸ h⟩
    · exact (State.requested_barFill hh hb hx).imp_right .inr
    · exact .inl (State.requested_portReset hh hb hx)
  | portReset n => exact .inl (State.requested_portReset rfl (s.bank_portReset n) hx)
  | warmReset =>
    rcases hx with hx | ⟨b, hx⟩
    · rw [State.warmReset_frame] at hx; cases hx
    · rw [State.bank_warmReset] at hx; cases hx
  | place op ho =>
    rcases State.requested_place hx with rfl | hx
    · exact .inr (.inl ho)
    · exact .inl ⟨x, hx, rfl⟩
  | release r => exact .inl ⟨x, State.requested_release hx, rfl⟩
  | grantNext b hb => exact .inl ⟨x, State.requested_grantNext hx, rfl⟩
  | fillNext b hi hr =>
    refine .inl ⟨x, hx.imp id fun ⟨c, hc⟩ => ⟨c, ?_⟩, rfl⟩
    rw [State.bank_updBank] at hc
    split at hc <;> exact hc
  | fillLast b hi hr =>
    refine .inl ⟨x, (State.requested_grantNext hx).imp id fun ⟨c, hc⟩ => ⟨c, ?_⟩, rfl⟩
    rw [State.bank_updBank] at hc
    split at hc <;> exact hc
  | restage n p => exact same (by rw [State.restage_frame]) (by rw [State.restage_frame])
  | newStage n p g => exact same (by rw [State.newStage_frame]) (by rw [State.newStage_frame])
  | removeStage p g e => exact same (by rw [State.removeStage_frame]) (by rw [State.removeStage_frame])
  | queueAndStart g => exact same (by rw [State.startLoad_frame]; rfl) (by rw [State.startLoad_frame]; rfl)
  | cycle =>
    exact same (by rw [State.startLoad_frame, State.countCycle_queueDue_frame])
      (by rw [State.startLoad_frame, State.countCycle_queueDue_frame])
  | transferred p skip => exact same (by rw [State.transferred_frame]) (by rw [State.transferred_frame])
  | _ => exact same rfl rfl

/-! ### Descriptor records -/

theorem decodeDesc_zero : decodeDesc 0 = some { kind := .unused, writers := 0, policy := .none } := by decide

/-- A record is judged by what its three words yield alone; what yields no more is still admitted. -/
theorem State.recordAdmitted_of_yields {s t : State} {slot : Nat} (h : s.recordAdmitted slot)
    (hy : ∀ w, w ∈ [WordName.desc, .low, .high] → ∀ v, (t.word slot w).yield = some v → (s.word slot w).yield = some v) :
    t.recordAdmitted slot := by
  intro v hv
  obtain ⟨d, hd, hl⟩ := h v (hy .desc (by simp) v hv)
  exact ⟨d, hd, fun lo hi h1 h2 => hl lo hi (hy .low (by simp) lo h1) (hy .high (by simp) hi h2)⟩

/-- The record that a DESC_WRITE carries is admitted where it is written. -/
theorem State.recordAdmitted_of_words {s : State} {slot : Nat} {desc low high : Value} {d : Descriptor}
    (hd : decodeDesc desc = some d) (hl : limitsCrossed d.policy low high = false)
    (h1 : s.word slot .desc = .clean desc) (h2 : s.word slot .low = .clean low) (h3 : s.word slot .high = .clean high) :
    s.recordAdmitted slot := by
  intro v hv
  rw [h1] at hv
  cases hv
  refine ⟨d, hd, fun lo hi hlo hhi => ?_⟩
  rw [h2] at hlo
  rw [h3] at hhi
  cases hlo
  cases hhi
  exact hl

theorem State.wf_writeRecord (s : State) (slot : Nat) (d l h : Value) (hw : Store.wf s.store = true) :
    Store.wf (s.writeRecord slot d l h).store = true :=
  wf_writeWord _ _ _ _ (wf_writeWord _ _ _ _ (wf_writeWord _ _ _ _ hw))

theorem State.word_writeRecord (s : State) (slot : Nat) (d l h : Value) (hw : Store.wf s.store = true) (i : Nat)
    (w : WordName) :
    (s.writeRecord slot d l h).word i w =
      if slot = i then
        (match w with
          | .desc => .clean d
          | .low => .clean l
          | .high => .clean h
          | w => s.word i w)
      else s.word i w := by
  have h1 := wf_writeWord s slot .desc d hw
  have h2 := wf_writeWord _ slot .low l h1
  unfold writeRecord
  rw [word_writeWord _ _ _ _ _ _ h2, word_writeWord _ _ _ _ _ _ h1, word_writeWord _ _ _ _ _ _ hw]
  by_cases hi : slot = i
  · cases w <;> simp [hi]
  · simp [hi]

theorem State.wf_fillSlot (s : State) (slot : Nat) (hw : Store.wf s.store = true) : Store.wf (s.fillSlot slot).store = true :=
  wf_putWord _ _ _ _ (wf_putWord _ _ _ _ (wf_putWord _ _ _ _ (wf_putWord _ _ _ _ (wf_putWord _ _ _ _ hw))))

theorem State.word_putWords (slot : Nat) (y : Stored) (ws : List WordName) (s : State) (hw : Store.wf s.store = true)
    (i : Nat) (w : WordName) :
    (ws.foldl (fun s w => s.putWord slot w y) s).word i w = if slot = i ∧ w ∈ ws then y else s.word i w := by
  induction ws generalizing s with
  | nil => simp
  | cons x ws ih =>
    rw [List.foldl_cons, ih _ (wf_putWord s slot x y hw), word_putWord s slot i x w y hw]
    by_cases hi : slot = i
    · by_cases hx : x = w
      · simp [hi, hx]
      · simp [hi, hx, Ne.symm hx]
    · simp [hi]

/-- A FILL leaves every word of its slot CLEAN 0 and every other word as it was (R2, R13). -/
theorem State.word_fillSlot (s : State) (slot : Nat) (hw : Store.wf s.store = true) (i : Nat) (w : WordName) :
    (s.fillSlot slot).word i w = if slot = i then .clean 0 else s.word i w := by
  have hmem : w ∈ slotWords := by cases w <;> decide
  have words := word_putWords slot fillWord slotWords s hw i w
  simp only [hmem, and_true] at words
  exact words

/-- What a write of a word that is in no record leaves: every record. -/
theorem State.word_writeWord_of_ne (s : State) (i j : Nat) (w x : WordName) (v : Value) (h : w ≠ x) :
    (s.writeWord i w v).word j x = s.word j x := word_putWord_of_ne s i j w x _ (.inr h)

theorem yield_disturbed {x : Stored} {v : Value} (h : x.disturbed.yield = some v) : x.yield = some v := by
  cases x
  · exact h
  · cases h
  · cases h

theorem DescriptorsAdmitted.of_quiet {s t : State} (h : Quiet s t) (hs : DescriptorsAdmitted s) :
    DescriptorsAdmitted t := by
  have hst := h.store_pending.1
  refine ⟨hst ▸ hs.canonical, fun slot => ?_, fun op ho desc low high ha => ?_⟩
  · simpa only [State.recordAdmitted, State.word, hst] using hs.store slot
  · obtain ⟨y, hy, hya⟩ | hp | ⟨l, hl⟩ := h.requested ho
    · exact hs.pending y hy desc low high (hya.trans ha)
    · simp only [BankOp.placed, ha] at hp
      exact hp.2
    · rw [hl] at ha; cases ha

/-- A change of the store alone keeps what the waiting operations carry. -/
theorem DescriptorsAdmitted.of_store {s t : State} (hs : DescriptorsAdmitted s) (hh : t.heldBack = s.heldBack)
    (hb : t.banks = s.banks) (hw : Store.wf t.store = true) (hr : ∀ slot, t.recordAdmitted slot) :
    DescriptorsAdmitted t :=
  ⟨hw, hr, fun op ho => hs.pending op (State.requested_of_same hh hb ho)⟩

theorem State.recordAdmitted_writeWord {s : State} (i slot : Nat) (w : WordName) (v : Value)
    (hw : w ∉ [WordName.desc, .low, .high]) (h : s.recordAdmitted slot) : (s.writeWord i w v).recordAdmitted slot := by
  refine State.recordAdmitted_of_yields h fun x hx u hu => ?_
  rwa [State.word_writeWord_of_ne s i slot w x v (by rintro rfl; exact hw hx)] at hu

theorem DescriptorsAdmitted.of_move {s t : State} (h : Move s t) (hs : DescriptorsAdmitted s) : DescriptorsAdmitted t := by
  have hc := hs.canonical
  cases h with
  | quiet q => exact hs.of_quiet q
  | disturb i w =>
    refine hs.of_store rfl rfl (State.wf_putWord _ _ _ _ hc) fun slot =>
      State.recordAdmitted_of_yields (hs.store slot) fun x _ v hv => ?_
    rw [State.word_putWord _ _ _ _ _ _ hc] at hv
    split at hv
    · next e => obtain ⟨rfl, rfl⟩ := e; exact yield_disturbed hv
    · exact hv
  | repair i w =>
    obtain ⟨st, e⟩ := s.repairWord_eq i w
    refine hs.of_store (by rw [e]) (State.repairWord_banks s i w) (State.wf_repairWord _ _ _ hc) fun slot =>
      State.recordAdmitted_of_yields (hs.store slot) fun x _ v hv => ?_
    rw [State.word_repairWord _ _ _ _ _ hc] at hv
    split at hv
    · rwa [State.yield_repaired] at hv
    · exact hv
  | writeStaged i v =>
    exact hs.of_store rfl rfl (State.wf_writeWord _ _ _ _ hc) fun slot =>
      State.recordAdmitted_writeWord _ _ _ _ (by decide) (hs.store slot)
  | writeLive b op v =>
    exact hs.of_store rfl rfl (State.wf_writeWord _ _ _ _ hc) fun slot =>
      State.recordAdmitted_writeWord _ _ _ _ (by decide) (hs.store slot)
  | writeMap b op m l e =>
    exact hs.of_store rfl rfl (State.wf_writeWord _ _ _ _ hc) fun slot =>
      State.recordAdmitted_writeWord _ _ _ _ (by decide) (hs.store slot)
  | writeRecord b op desc low high hb ha =>
    have hop : op ∈ (s.bank b).ops := by rw [Bank.ops_of_busy hb]; exact List.mem_cons_self
    obtain ⟨d, hd, hl⟩ := hs.pending op (.inr ⟨b, hop⟩) desc low high ha
    have words := s.word_writeRecord op.slot desc low high hc
    refine hs.of_store rfl rfl (s.wf_writeRecord _ _ _ _ hc) fun slot => ?_
    by_cases e : op.slot = slot
    · exact State.recordAdmitted_of_words hd hl (by rw [words]; simp [e]) (by rw [words]; simp [e])
        (by rw [words]; simp [e])
    · refine State.recordAdmitted_of_yields (hs.store slot) fun x _ v hv => ?_
      rwa [words, if_neg e] at hv
  | fillSlot b i hb =>
    have words := s.word_fillSlot i hc
    refine hs.of_store rfl rfl (s.wf_fillSlot i hc) fun slot => ?_
    by_cases e : i = slot
    · exact State.recordAdmitted_of_words decodeDesc_zero rfl (by rw [words, if_pos e]) (by rw [words, if_pos e])
        (by rw [words, if_pos e])
    · refine State.recordAdmitted_of_yields (hs.store slot) fun x _ v hv => ?_
      rwa [words, if_neg e] at hv
  | insert n e => exact ⟨hc, hs.store, hs.pending⟩
  | placeTranslated op ho =>
    refine ⟨hc, hs.store, fun x hx desc low high ha => ?_⟩
    rcases State.requested_place hx with rfl | hx
    · rcases ho with ⟨_, h⟩ | ⟨_, _, h⟩ | ⟨_, _, h⟩ <;> rw [h] at ha <;> cases ha
    · exact hs.pending x hx desc low high ha
  | stop =>
    refine ⟨hc, hs.store, fun x hx => ?_⟩
    rcases hx with hx | ⟨b, hx⟩
    · cases hx
    · rw [State.bank_stopPart, Bank.ops_stopped] at hx; cases hx
  | cold roles =>
    refine ⟨hc, hs.store, fun x hx => ?_⟩
    rcases hx with hx | ⟨b, hx⟩
    · cases hx
    · rw [State.bank_coldReset, Bank.ops_cold] at hx; cases hx

/-- Settles O53: the three words of a record change by a DESC_WRITE that its checks have passed and by the fill alone; a
disturbance or a repair makes no word yield another value. -/
theorem descriptorsStayAdmitted : Obligations.DescriptorsStayAdmitted :=
  fun _ _ hs h => step_keeps (fun _ _ hu => ⟨hu.canonical, hu.store, hu.pending⟩) (fun move hu => hu.of_move move) h hs

end Sys2Proof.Machine
end

section
/-! The arbiters and their requesters, kept sound by every step (R1, R13, R19, R21, R22, R108). -/

namespace Sys2Proof.Machine

/-! ### One bank -/

/-- What ArbiterSound asks of one bank, `low` being the state of RESET. -/
structure Bank.Sound (low : Bool) (b : BankId) (x : Bank) : Prop where
  idle : x.phase = .idle → x.waiting = []
  home : ∀ op ∈ x.ops, bankOf op.slot = b
  bound : x.waitCount ≤ 8
  zero : low = false → x.waits .scrub = false → x.waitCount = 0
  fill : x.phase = .init → x.fillRow < 1024

/-- The requests of one requester at a bank, waiting or in flight (R19). -/
def Bank.claims (r : Requester) (x : Bank) : Nat := x.ops.countP (fun op => op.who == r)

namespace Bank

theorem claims_of_ops_nil {x : Bank} (h : x.ops = []) (r : Requester) : x.claims r = 0 := by simp [claims, h]

theorem claims_arrive (op : BankOp) (x : Bank) (r : Requester) :
    (x.arrive op).claims r = x.claims r + if op.who = r then 1 else 0 := by
  unfold claims
  rw [(x.ops_arrive op).countP_eq, List.countP_cons]
  simp

theorem countP_waiting_le (x : Bank) (p : BankOp → Bool) : x.waiting.countP p ≤ x.ops.countP p := by
  unfold ops
  split
  · exact (List.sublist_cons_self _ _).countP_le
  · exact Nat.le_refl _

theorem claims_grantNext_le (k : Nat) (x : Bank) (r : Requester) : (x.grantNext k).claims r ≤ x.claims r := by
  unfold claims
  rw [(x.ops_grantNext k).countP_eq]
  exact x.countP_waiting_le _

theorem claims_portReset_le (n : Port) (x : Bank) (r : Requester) : (x.portReset n).claims r ≤ x.claims r := by
  have waiting_le : (x.portReset n).waiting.countP (fun op => op.who == r) ≤ x.waiting.countP (fun op => op.who == r) :=
    List.filter_sublist.countP_le
  unfold claims
  cases hp : x.phase with
  | busy op =>
    have hphase : (x.portReset n).phase = .busy (if op.who = .ce n then { op with dropped := true } else op) := by
      simp only [portReset, hp]
      split <;> rfl
    have who : (if op.who = .ce n then { op with dropped := true } else op).who = op.who := by split <;> rfl
    rw [ops_of_busy hphase, ops_of_busy hp, List.countP_cons, List.countP_cons, who]
    exact Nat.add_le_add_right waiting_le _
  | _ =>
    have hphase : (x.portReset n).phase = x.phase := by simp only [portReset, hp]
    rw [ops_of_not_busy (by rw [hphase, hp]; simp), ops_of_not_busy (by rw [hp]; simp)]
    exact waiting_le

theorem claims_barFill (n : Port) (size : Nat) (x : Bank) (r : Requester) : (x.barFill n size).claims r = x.claims r := by
  unfold claims
  obtain e | ⟨op, hp, e⟩ := x.ops_barFill n size
  · rw [e]
  · rw [e, ops_of_busy hp, List.countP_cons, List.countP_cons, (op.barFill_who_slot n size).1]

/-- A port is chosen over a waiting scrub request only below K. -/
theorem below_of_choice_ce {k : Nat} {x : Bank} {n : Port} (h : x.choice k = some (.ce n)) :
    x.waits .scrub = true → x.waitCount < k := by
  intro hs
  unfold choice at h
  split at h
  · cases h
  · split at h
    · cases h
    · next hk => simpa [hs] using hk

namespace Sound

variable {low : Bool} {b : BankId} {x : Bank}

theorem cold (low : Bool) (b : BankId) : Sound low b Bank.cold :=
  ⟨by simp [Bank.cold], by simp [ops_cold], by simp [Bank.cold], fun _ _ => rfl, by simp [Bank.cold]⟩

theorem arrive (h : Sound low b x) {op : BankOp} (hop : bankOf op.slot = b) : Sound low b (x.arrive op) := by
  have home : ∀ y ∈ (x.arrive op).ops, bankOf y.slot = b := by
    intro y hy
    rcases List.mem_cons.1 ((x.ops_arrive op).mem_iff.1 hy) with rfl | hy
    · exact hop
    · exact h.home y hy
  by_cases hi : x.phase = .idle
  · have none_waits := waits_of_waiting_nil (h.idle hi)
    obtain ⟨hp, hw, hf⟩ := x.grant_phase_waiting op
    have count : (x.grant op).waitCount ≤ x.waitCount := by
      unfold grant
      split
      · exact Nat.le_refl _
      · exact Nat.zero_le _
      · simp [none_waits]
    rw [arrive_of_idle op hi] at home ⊢
    refine ⟨by simp [hp], home, count.trans h.bound, fun hl _ => ?_, by simp [hp]⟩
    exact Nat.eq_zero_of_le_zero (h.zero hl (none_waits .scrub) ▸ count)
  · rw [arrive_of_not_idle op hi] at home ⊢
    refine ⟨fun hi' => absurd hi' hi, home, h.bound, fun hl hs => h.zero hl ?_, h.fill⟩
    rw [← Bool.not_eq_true, waits_iff] at hs ⊢
    exact fun ⟨y, hy, hr⟩ => hs ⟨y, by simp [hy], hr⟩

/-- A grant decision by a K of at most 8, whatever the fill position, which counts in INIT alone. -/
theorem grantNext_at (h : Sound low b x) {k : Nat} (hk : k ≤ 8) (row : Nat) :
    Sound low b (Bank.grantNext k { x with fillRow := row }) := by
  generalize hy : ({ x with fillRow := row } : Bank) = y
  have ops : y.ops = x.ops := by subst hy; rfl
  have bound : y.waitCount ≤ 8 := by subst hy; exact h.bound
  have zero : low = false → y.waits .scrub = false → y.waitCount = 0 := by subst hy; exact h.zero
  have home : ∀ z ∈ (y.grantNext k).ops, bankOf z.slot = b := fun z hz =>
    h.home z (ops ▸ y.waiting_subset_ops ((y.ops_grantNext k).mem_iff.1 hz))
  obtain ⟨not_init, idle⟩ := y.grantNext_phase k
  have count : (y.grantNext k).waitCount ≤ 8 ∧
      (low = false → (y.grantNext k).waits .scrub = false → (y.grantNext k).waitCount = 0) := by
    obtain ⟨-, e⟩ | ⟨op, hm, hc, e⟩ := y.grantNext_cases k
    · rw [e]; exact ⟨bound, zero⟩
    · cases hr : op.who with
      | scrub => rw [e, grant_scrub _ hr]; exact ⟨Nat.zero_le _, fun _ _ => rfl⟩
      | load =>
        have same := y.waits_erase_of_ne (op := op) (r := .scrub) (by simp [hr])
        rw [e, grant_load _ hr]
        exact ⟨bound, fun hl hs => zero hl (same.symm.trans hs)⟩
      | ce n =>
        have same := y.waits_erase_of_ne (op := op) (r := .scrub) (by simp [hr])
        have below := below_of_choice_ce (hr ▸ hc)
        rw [e, grant_ce _ hr]
        dsimp only
        rw [same]
        refine ⟨?_, fun hl hs => ?_⟩
        · split
          · next hs => exact (below hs).trans_le hk
          · exact bound
        · have hs' : y.waits .scrub = false := same.symm.trans hs
          simp [hs', zero hl hs']
  exact ⟨idle, home, count.1, count.2, fun hi => absurd hi not_init⟩

theorem grantNext (h : Sound low b x) {k : Nat} (hk : k ≤ 8) : Sound low b (x.grantNext k) := h.grantNext_at hk x.fillRow

theorem portReset (h : Sound low b x) (n : Port) : Sound low b (x.portReset n) := by
  have phase_of {ph : Phase} (hn : ∀ op, ph ≠ .busy op) (he : (x.portReset n).phase = ph) : x.phase = ph := by
    cases hp : x.phase with
    | busy op =>
      simp only [Bank.portReset, hp] at he
      split at he <;> exact absurd he.symm (hn _)
    | _ => simpa only [Bank.portReset, hp] using he
  refine ⟨fun hi => ?_, fun op ho => ?_, h.bound, fun hl hs => h.zero hl ?_, fun hi => h.fill (phase_of (by simp) hi)⟩
  · simp [Bank.portReset, h.idle (phase_of (by simp) hi)]
  · obtain ⟨y, hy, e | e⟩ := mem_ops_portReset ho <;> rw [e] <;> exact h.home y hy
  · rw [← Bool.not_eq_true, waits_iff] at hs ⊢
    rintro ⟨y, hy, hr⟩
    exact hs ⟨y, List.mem_filter.2 ⟨hy, by simp [hr]⟩, hr⟩

theorem barFill (h : Sound low b x) (n : Port) (size : Nat) : Sound low b (x.barFill n size) := by
  have phase_of {ph : Phase} (hn : ∀ op, ph ≠ .busy op) (he : (x.barFill n size).phase = ph) : x.phase = ph := by
    cases hp : x.phase with
    | busy op => simp only [Bank.barFill, hp] at he; exact absurd he.symm (hn _)
    | _ => simpa only [Bank.barFill, hp] using he
  refine ⟨fun hi => h.idle (phase_of (by simp) hi), fun op ho => ?_, h.bound, h.zero, fun hi => h.fill (phase_of (by simp) hi)⟩
  obtain e | ⟨y, hp, e⟩ := x.ops_barFill n size
  · exact h.home op (e ▸ ho)
  · rw [e, List.mem_cons] at ho
    rcases ho with rfl | ho
    · rw [(y.barFill_who_slot n size).2.1]
      exact h.home y (by rw [ops_of_busy hp]; exact List.mem_cons_self)
    · exact h.home op (x.waiting_subset_ops ho)

theorem warmReset (low : Bool) (b : BankId) (x : Bank) : Sound low b x.warmReset :=
  ⟨fun _ => rfl, by simp [ops_warmReset], Nat.zero_le _, fun _ _ => rfl, fun h => by cases h⟩

/-- With RESET low the wait count stands as it was, though nothing waits. -/
theorem stopped (h : Sound low b x) : Sound true b x.stopped := by
  refine ⟨fun _ => rfl, by simp [ops_stopped], h.bound, nofun, fun hi => h.fill ?_⟩
  cases hp : x.phase with
  | init => rfl
  | idle | busy _ => simp [Bank.stopped, hp] at hi

end Sound

end Bank

/-! ### The whole store -/

/-- The requests of one requester in the whole store (R19). -/
def State.claims (s : State) (r : Requester) : Nat :=
  ([(0 : BankId), 1, 2, 3].flatMap (fun b => (s.bank b).ops)).countP (fun op => op.who == r)

theorem State.claims_eq (s : State) (r : Requester) :
    s.claims r = (s.bank 0).claims r + (s.bank 1).claims r + (s.bank 2).claims r + (s.bank 3).claims r := by
  simp [State.claims, Bank.claims, Nat.add_assoc]

theorem State.claims_le {s t : State} {r : Requester} (h : ∀ b, (t.bank b).claims r ≤ (s.bank b).claims r) :
    t.claims r ≤ s.claims r := by
  rw [State.claims_eq, State.claims_eq]
  have h0 := h 0
  have h1 := h 1
  have h2 := h 2
  have h3 := h 3
  omega

theorem Bank.claims_eq_zero {x : Bank} {r : Requester} (h : ∀ op ∈ x.ops, op.who ≠ r) : x.claims r = 0 := by
  simpa [claims, List.countP_eq_zero] using h

/-- A requester places only when it has no other request outstanding. -/
theorem State.claims_place_le {s : State} (h : ∀ r, s.claims r ≤ 1) (op : BankOp) (r : Requester) :
    (s.place op).claims r ≤ 1 := by
  cases ho : s.outstanding op.who with
  | true =>
    have same (b : BankId) : (s.place op).bank b = s.bank b := by simp [State.bank_place, ho]
    exact (State.claims_le fun b => by rw [same]).trans (h r)
  | false =>
    have banks (b : BankId) : ((s.place op).bank b).claims r =
        (s.bank b).claims r + if bankOf op.slot = b ∧ op.who = r then 1 else 0 := by
      rw [State.bank_place]
      by_cases hb : bankOf op.slot = b
      · simp [ho, hb, Bank.claims_arrive]
      · simp [hb]
    by_cases hr : op.who = r
    · have none_there (b : BankId) : (s.bank b).claims r = 0 := by
        refine Bank.claims_eq_zero fun x hx hxr => ?_
        have : s.outstanding op.who = true := (State.outstanding_iff s _).2 ⟨b, x, hx, hxr.trans hr.symm⟩
        rw [ho] at this
        cases this
      have one_bank (c : BankId) : (if c = 0 then 1 else 0) + (if c = 1 then 1 else 0) + (if c = 2 then 1 else 0) +
          (if c = 3 then 1 else 0) = 1 := by revert c; decide
      rw [State.claims_eq]
      simp only [banks, none_there, hr, and_true, Nat.zero_add, one_bank, Nat.le_refl]
    · exact (State.claims_le fun b => by rw [banks]; simp [hr]).trans (h r)

theorem ArbiterSound.bank {s : State} (h : ArbiterSound s) (b : BankId) : (s.bank b).Sound s.resetLow b :=
  ⟨h.idle b, h.home b, h.bound b, fun hl => h.zero hl b, h.fill b⟩

theorem ArbiterSound.of_banks {s : State} (guarantee : s.dev.guarantee.toNat ≤ 8) (patrol : s.patrol ≤ 4095)
    (banks : ∀ b, (s.bank b).Sound s.resetLow b) (claims : ∀ r, s.claims r ≤ 1) : ArbiterSound s :=
  ⟨guarantee, fun b => (banks b).idle, fun b => (banks b).home, fun b => (banks b).bound, claims, patrol,
    fun hl b => (banks b).zero hl, fun b => (banks b).fill⟩

/-- What the invariant does not speak of may change. -/
theorem ArbiterSound.of_same {s t : State} (h : ArbiterSound s) (hb : t.banks = s.banks) (hd : t.dev = s.dev)
    (hp : t.patrol = s.patrol) (hl : t.resetLow = s.resetLow) : ArbiterSound t := by
  have bank (b : BankId) : t.bank b = s.bank b := by simp only [State.bank, hb]
  refine .of_banks (hd ▸ h.guarantee) (hp ▸ h.patrol) (fun b => ?_) fun r => ?_
  · rw [bank, hl]; exact h.bank b
  · exact (State.claims_le fun b => by rw [bank]).trans (h.claims r)

/-- Each bank changed by a function that keeps it sound and adds no request. -/
theorem ArbiterSound.of_each {s t : State} (h : ArbiterSound s) (hd : t.dev.guarantee.toNat ≤ 8) (hp : t.patrol ≤ 4095)
    (hb : ∀ b, (t.bank b).Sound t.resetLow b) (hc : ∀ b r, (t.bank b).claims r ≤ (s.bank b).claims r) : ArbiterSound t :=
  .of_banks hd hp hb fun r => (State.claims_le fun b => hc b r).trans (h.claims r)

theorem ArbiterSound.place {s : State} (h : ArbiterSound s) (op : BankOp) : ArbiterSound (s.place op) := by
  refine .of_banks h.guarantee h.patrol (fun b => ?_) (State.claims_place_le h.claims op)
  rw [State.bank_place]
  split
  · next e => exact (h.bank b).arrive e.2
  · exact h.bank b

theorem ArbiterSound.grantNext {s : State} (h : ArbiterSound s) (b : BankId) : ArbiterSound (s.grantNext b) := by
  refine h.of_each h.guarantee h.patrol (fun c => ?_) fun c r => ?_ <;> rw [State.bank_grantNext]
  · split
    · exact (h.bank c).grantNext h.guarantee
    · exact h.bank c
  · split
    · exact Bank.claims_grantNext_le _ _ _
    · exact Nat.le_refl _

theorem Bank.Sound.advanceFill {low : Bool} {b : BankId} {x : Bank} (h : x.Sound low b) {row : Nat} (hr : row < 1024) :
    Bank.Sound low b { x with fillRow := row } := ⟨h.idle, h.home, h.bound, h.zero, fun _ => hr⟩

/-- A guarantee in its range is at most 8 (11.2). -/
theorem guarantee_le {v : BitVec 64} (h : Item.inRange .scrubGuarantee v = true) : (v.setWidth 8 : Byte).toNat ≤ 8 := by
  simp only [Item.inRange, Bool.or_eq_true, beq_iff_eq] at h
  rcases h with ((rfl | rfl) | rfl) | rfl <;> decide

theorem ArbiterSound.writeItem {s : State} (h : ArbiterSound s) (i : Item) (m : Port) (v : BitVec 64)
    (hv : i.inRange v = true) : ArbiterSound (s.writeItem i m v) := by
  have guarantee : (s.writeItem i m v).dev.guarantee.toNat ≤ 8 := by
    cases i with
    | scrubGuarantee => exact guarantee_le hv
    | linkEnable =>
      simp only [State.writeItem, State.writeLinkEnable]
      split <;> exact h.guarantee
    | _ => exact h.guarantee
  have patrol : (s.writeItem i m v).patrol ≤ 4095 := by rw [State.writeItem_frame]; exact h.patrol
  have low : (s.writeItem i m v).resetLow = s.resetLow := by rw [State.writeItem_frame]
  obtain ⟨-, hb⟩ | ⟨-, size, hb⟩ | ⟨-, hb⟩ := s.bank_writeItem_cases i m v
  · refine h.of_each guarantee patrol (fun b => ?_) fun b r => ?_ <;> rw [hb]
    rw [low]; exact h.bank b
  · refine h.of_each guarantee patrol (fun b => ?_) fun b r => ?_ <;> rw [hb]
    · rw [low]; exact (h.bank b).barFill m size
    · exact (Bank.claims_barFill ..).le
  · refine h.of_each guarantee patrol (fun b => ?_) fun b r => ?_ <;> rw [hb]
    · rw [low]; exact (h.bank b).portReset m
    · exact Bank.claims_portReset_le ..

theorem ArbiterSound.of_quiet {s t : State} (h : Quiet s t) (hs : ArbiterSound s) : ArbiterSound t := by
  cases h with
  | setting i m v hv => exact hs.writeItem i m v hv
  | portReset n =>
    refine hs.of_each hs.guarantee hs.patrol (fun b => ?_) fun b r => ?_ <;> rw [State.bank_portReset]
    · exact (hs.bank b).portReset n
    · exact Bank.claims_portReset_le ..
  | warmReset =>
    refine hs.of_each ?_ ?_ (fun b => ?_) fun b r => ?_
    · rw [State.warmReset_frame]; exact hs.guarantee
    · rw [State.warmReset_frame]; exact hs.patrol
    · rw [State.bank_warmReset]; exact .warmReset _ _ _
    · rw [State.bank_warmReset, Bank.claims_of_ops_nil (Bank.ops_warmReset _)]; exact Nat.zero_le _
  | place op => exact hs.place op
  | release r =>
    obtain e | ⟨op, -, -, e⟩ := s.release_cases r <;> rw [e]
    · exact hs
    · exact ArbiterSound.place (s := s.forget r) (hs.of_same rfl rfl rfl rfl) op
  | grantNext b => exact hs.grantNext b
  | fillNext b hi hr =>
    refine hs.of_each hs.guarantee hs.patrol (fun c => ?_) fun c r => ?_ <;> rw [State.bank_updBank]
    · split
      · exact (hs.bank c).advanceFill (by omega)
      · exact hs.bank c
    · split <;> exact Nat.le_refl _
  | fillLast b hi hr =>
    refine hs.of_each hs.guarantee hs.patrol (fun c => ?_) fun c r => ?_ <;>
      rw [State.bank_grantNext, State.bank_updBank]
    · split
      · exact (hs.bank c).grantNext_at hs.guarantee _
      · exact hs.bank c
    · split
      · exact Bank.claims_grantNext_le _ _ _
      · exact Nat.le_refl _
  | patrol k hk => exact .of_banks hs.guarantee hk hs.bank hs.claims
  | restage n p =>
    exact hs.of_same (by rw [State.restage_frame]) (by rw [State.restage_frame]) (by rw [State.restage_frame])
      (by rw [State.restage_frame])
  | newStage n p g =>
    rw [State.newStage_frame]; exact hs.of_same rfl rfl rfl rfl
  | removeStage p g e => rw [State.removeStage_frame]; exact hs.of_same rfl rfl rfl rfl
  | queueAndStart g => rw [State.startLoad_frame]; exact hs.of_same rfl rfl rfl rfl
  | cycle =>
    rw [State.startLoad_frame, State.countCycle_queueDue_frame]; exact hs.of_same rfl rfl rfl rfl
  | transferred p skip => rw [State.transferred_frame]; exact hs.of_same rfl rfl rfl rfl
  | _ => exact hs.of_same rfl rfl rfl rfl

theorem ArbiterSound.of_move {s t : State} (h : Move s t) (hs : ArbiterSound s) : ArbiterSound t := by
  cases h with
  | quiet q => exact hs.of_quiet q
  | repair i w =>
    obtain ⟨st, e⟩ := s.repairWord_eq i w
    rw [e]
    exact hs.of_same rfl rfl rfl rfl
  | placeTranslated op => exact hs.place op
  | stop =>
    refine hs.of_each hs.guarantee hs.patrol (fun b => ?_) fun b r => ?_ <;> rw [State.bank_stopPart]
    · exact (hs.bank b).stopped
    · rw [Bank.claims_of_ops_nil (Bank.ops_stopped _)]; exact Nat.zero_le _
  | cold roles =>
    refine hs.of_each (t := s.coldReset roles) (show DeviceSettings.cold.guarantee.toNat ≤ 8 by decide) (Nat.zero_le _)
      (fun b => ?_) fun b r => ?_ <;>
      rw [State.bank_coldReset]
    · exact .cold _ _
    · rw [Bank.claims_of_ops_nil Bank.ops_cold]; exact Nat.zero_le _
  | _ => exact hs.of_same rfl rfl rfl rfl

/-- Settles O55: each bank is kept sound by an arrival, a grant decision and the resets, and a requester places only while no
other request of its own is outstanding. -/
theorem arbitersStaySound : Obligations.ArbitersStaySound :=
  fun _ _ hs h => step_keeps (fun _ _ hu => hu.of_same rfl rfl rfl rfl) (fun move hu => hu.of_move move) h hs

end Sys2Proof.Machine
end

section
/-! The load tables, kept sound by every step (R68, R84, R85, R97, R98, R102). -/

namespace Sys2Proof.Machine

/-! ### Marks and the entries in use -/

namespace State

theorem mem_inUse (s : State) (e : StageEntry) : e ∈ s.inUse ↔ ∃ g, e ∈ (s.group g).list := by
  simp [inUse, allGroups]

theorem markOf_eq_none_iff (s : State) (p : Nat) :
    s.markOf p = none ↔ ∀ g, ∀ e ∈ (s.group g).list, e.point ≠ p := by
  simp [markOf, allGroups, List.findSome?_eq_none_iff]

theorem markOf_eq_some {s : State} {p : Nat} {g : GroupId} {e : StageEntry} (h : s.markOf p = some (g, e)) :
    e ∈ (s.group g).list ∧ e.point = p := by
  obtain ⟨k, -, hk⟩ := List.exists_of_findSome?_eq_some h
  obtain ⟨x, hx, hxe⟩ := Option.map_eq_some_iff.1 hk
  cases hxe
  exact ⟨List.mem_of_find?_eq_some hx, by simpa using List.find?_some hx⟩

theorem marked_eq_false_iff (s : State) (p : Nat) : s.marked p = false ↔ ∀ e ∈ s.inUse, e.point ≠ p := by
  rw [marked, Option.isSome_eq_false_iff, Option.isNone_iff_eq_none, markOf_eq_none_iff]
  simp only [mem_inUse]
  exact ⟨fun h e ⟨g, he⟩ => h g e he, fun h g e he => h e ⟨g, he⟩⟩

/-- The entries in use around one group: a change of that group's list alone changes them there alone. -/
theorem inUse_around {s t : State} {g : GroupId} (others : ∀ h, h ≠ g → (t.group h).list = (s.group h).list) :
    ∃ before after, s.inUse = before ++ (s.group g).list ++ after ∧ t.inUse = before ++ (t.group g).list ++ after := by
  have hmem : g ∈ allGroups := List.mem_finRange g
  obtain ⟨pre, post, hsplit⟩ := List.append_of_mem hmem
  have hnd : (pre ++ g :: post).Nodup := hsplit ▸ List.nodup_finRange 63
  rw [List.nodup_append] at hnd
  obtain ⟨-, hpost, hpre⟩ := hnd
  have same (hs : List GroupId) (hne : ∀ h ∈ hs, h ≠ g) :
      hs.flatMap (fun h => (t.group h).list) = hs.flatMap (fun h => (s.group h).list) :=
    List.flatMap_congr fun h hh => others h (hne h hh)
  refine ⟨pre.flatMap (fun h => (s.group h).list), post.flatMap (fun h => (s.group h).list), ?_, ?_⟩
  · simp [inUse, hsplit]
  · rw [← same pre fun h hh => hpre h hh g List.mem_cons_self,
      ← same post fun h hh e => (List.nodup_cons.1 hpost).1 (e ▸ hh)]
    simp [inUse, hsplit]

theorem group_loadEnded (s : State) (g h : GroupId) :
    (s.loadEnded g).group h =
      if g = h then { s.group h with state := .empty, lastLoad := some s.loadRecord } else s.group h :=
  group_updGroup { s with engine := none } g h (fun r => { r with state := .empty, lastLoad := some s.loadRecord })

theorem inUse_of_lists {s t : State} (h : ∀ g, (t.group g).list = (s.group g).list) : t.inUse = s.inUse :=
  List.flatMap_congr fun g _ => h g

theorem inUse_of_empty {s : State} (h : ∀ g, (s.group g).list = []) : s.inUse = [] := by
  refine List.eq_nil_iff_forall_not_mem.2 fun e he => ?_
  obtain ⟨g, hg⟩ := (s.mem_inUse e).1 he
  rw [h g] at hg
  cases hg

end State

/-! ### The tables short of the engine's start -/

/-- LoadSound but for the start of a load that is due: within an event the queue may fill while the engine is IDLE. -/
structure LoadTables (s : State) : Prop where
  entries : (s.freeList ++ s.inUse.map StageEntry.entry).Perm allEntries
  points : (s.inUse.map StageEntry.point).Nodup
  counts : ∀ g, (s.group g).list = [] ↔ (s.group g).state = .empty
  queueOnce : s.loadQueue.Nodup
  queued : ∀ g, g ∈ s.loadQueue ↔ (s.group g).state = .queued
  loading : ∀ g, (s.group g).state = .loading ↔ s.engine = some g
  armed : ∀ g, (s.group g).state = .armed → (s.group g).mode = .manual
  holds : ∀ n h, (s.port n).ce = .holding h → (s.group h.group).state = .loading

theorem LoadSound.tables {s : State} (h : LoadSound s) : LoadTables s :=
  ⟨h.entries, h.points, h.counts, h.queueOnce, h.queued, h.loading, h.armed, h.holds⟩

theorem LoadTables.sound {s : State} (h : LoadTables s) (idle : s.engine = none → s.loadQueue = []) : LoadSound s :=
  ⟨h.entries, h.points, h.counts, h.queueOnce, h.queued, h.loading, h.armed, idle, h.holds⟩

namespace LoadTables

/-- Entries that pass between the free list and one group's list leave the account whole (R68). -/
theorem entries_of {s t : State} (hs : LoadTables s) {g : GroupId}
    (others : ∀ h, h ≠ g → (t.group h).list = (s.group h).list)
    (moved : (t.freeList ++ (t.group g).list.map StageEntry.entry).Perm
      (s.freeList ++ (s.group g).list.map StageEntry.entry)) :
    (t.freeList ++ t.inUse.map StageEntry.entry).Perm allEntries := by
  obtain ⟨before, after, h1, h2⟩ := State.inUse_around others
  refine List.Perm.trans ?_ hs.entries
  rw [List.perm_iff_count] at moved ⊢
  intro a
  have := moved a
  simp only [h1, h2, List.map_append, List.count_append] at this ⊢
  omega

theorem points_of {s t : State} (hs : LoadTables s) {g : GroupId}
    (others : ∀ h, h ≠ g → (t.group h).list = (s.group h).list)
    (fewer : ((t.group g).list.map StageEntry.point).Sublist ((s.group g).list.map StageEntry.point)) :
    (t.inUse.map StageEntry.point).Nodup := by
  obtain ⟨before, after, h1, h2⟩ := State.inUse_around others
  refine List.Nodup.sublist ?_ hs.points
  simp only [h1, h2, List.map_append]
  exact ((List.Sublist.refl _).append fewer).append (List.Sublist.refl _)

/-- One group's record changed, and of queue and engine that group's part alone. -/
theorem of_group {s t : State} (hs : LoadTables s) (g : GroupId) (others : ∀ h, h ≠ g → t.group h = s.group h)
    (moved : (t.freeList ++ (t.group g).list.map StageEntry.entry).Perm
      (s.freeList ++ (s.group g).list.map StageEntry.entry))
    (points : (t.inUse.map StageEntry.point).Nodup)
    (count : (t.group g).list = [] ↔ (t.group g).state = .empty)
    (once : t.loadQueue.Nodup) (queue : ∀ h, h ≠ g → (h ∈ t.loadQueue ↔ h ∈ s.loadQueue))
    (queued : g ∈ t.loadQueue ↔ (t.group g).state = .queued)
    (engine : ∀ h, h ≠ g → (t.engine = some h ↔ s.engine = some h))
    (loading : (t.group g).state = .loading ↔ t.engine = some g)
    (armed : (t.group g).state = .armed → (t.group g).mode = .manual)
    (holds : ∀ n h, (t.port n).ce = .holding h → (t.group h.group).state = .loading) : LoadTables t := by
  have elsewhere {p : GroupId → Prop} (here : p g) (there : ∀ h, h ≠ g → p h) (h : GroupId) : p h := by
    by_cases e : h = g
    · exact e ▸ here
    · exact there h e
  refine ⟨hs.entries_of (fun h hne => by rw [others h hne]) moved, points, elsewhere count fun h e => ?_, once,
    elsewhere queued fun h e => ?_, elsewhere loading fun h e => ?_, elsewhere armed fun h e => ?_, holds⟩
  · rw [others h e]; exact hs.counts h
  · rw [others h e]; exact (queue h e).trans (hs.queued h)
  · rw [others h e]; exact (hs.loading h).trans (engine h e).symm
  · rw [others h e]; exact hs.armed h

/-- One group's record, the free list and the queue changed, while the engine works on the group it worked on. -/
theorem of_setGroup {s : State} (hs : LoadTables s) (g : GroupId) (free : List Nat) (queue : List GroupId) (r : GroupRec)
    (moved : (free ++ r.list.map StageEntry.entry).Perm (s.freeList ++ (s.group g).list.map StageEntry.entry))
    (points : (({ s with freeList := free, loadQueue := queue }.setGroup g r).inUse.map StageEntry.point).Nodup)
    (count : r.list = [] ↔ r.state = .empty) (once : queue.Nodup) (others : ∀ h, h ≠ g → (h ∈ queue ↔ h ∈ s.loadQueue))
    (queued : g ∈ queue ↔ r.state = .queued) (loading : r.state = .loading ↔ (s.group g).state = .loading)
    (armed : r.state = .armed → r.mode = .manual) :
    LoadTables ({ s with freeList := free, loadQueue := queue }.setGroup g r) := by
  have self : ({ s with freeList := free, loadQueue := queue }.setGroup g r).group g = r := State.group_setGroup_self _ _ _
  have other (h : GroupId) (hne : h ≠ g) :
      ({ s with freeList := free, loadQueue := queue }.setGroup g r).group h = s.group h :=
    State.group_setGroup_of_ne _ _ _ _ (Ne.symm hne)
  refine hs.of_group g other (by rwa [self]) points (by rwa [self]) once others (by rwa [self]) (fun _ _ => Iff.rfl)
    (by rw [self, loading]; exact hs.loading g) (by rwa [self]) fun n h hn => ?_
  have hl := hs.holds n h hn
  by_cases e : h.group = g
  · rw [e, self, loading, ← e]; exact hl
  · rw [other _ e]; exact hl

/-- The same with no point added to the group's list. -/
theorem of_setGroup_fewer {s : State} (hs : LoadTables s) (g : GroupId) (free : List Nat) (queue : List GroupId)
    (r : GroupRec)
    (moved : (free ++ r.list.map StageEntry.entry).Perm (s.freeList ++ (s.group g).list.map StageEntry.entry))
    (fewer : (r.list.map StageEntry.point).Sublist ((s.group g).list.map StageEntry.point))
    (count : r.list = [] ↔ r.state = .empty) (once : queue.Nodup) (others : ∀ h, h ≠ g → (h ∈ queue ↔ h ∈ s.loadQueue))
    (queued : g ∈ queue ↔ r.state = .queued) (loading : r.state = .loading ↔ (s.group g).state = .loading)
    (armed : r.state = .armed → r.mode = .manual) :
    LoadTables ({ s with freeList := free, loadQueue := queue }.setGroup g r) := by
  refine hs.of_setGroup g free queue r moved (hs.points_of (g := g) (fun h hne => ?_) ?_) count once others queued loading
    armed
  · rw [State.group_setGroup_of_ne _ _ _ _ (Ne.symm hne)]; rfl
  · rw [State.group_setGroup_self]; exact fewer

/-- A state of the same kind given to a group: neither EMPTY, QUEUED nor LOADING, before or after. -/
theorem of_state {s : State} (hs : LoadTables s) (g : GroupId) (r : GroupRec) (list : r.list = (s.group g).list)
    (empty : r.state = .empty ↔ (s.group g).state = .empty) (queued : r.state = .queued ↔ (s.group g).state = .queued)
    (loading : r.state = .loading ↔ (s.group g).state = .loading) (armed : r.state = .armed → r.mode = .manual) :
    LoadTables (s.setGroup g r) :=
  hs.of_setGroup_fewer g s.freeList s.loadQueue r (by rw [list]) (by rw [list]) (by rw [list, empty]; exact hs.counts g)
    hs.queueOnce (fun _ _ => Iff.rfl) (by rw [queued]; exact hs.queued g) loading armed

/-- Ports changed, no engine holding that did not hold before on the same group. -/
theorem of_ports {s t : State} (hs : LoadTables s) (groups : t.groups = s.groups) (free : t.freeList = s.freeList)
    (queue : t.loadQueue = s.loadQueue) (engine : t.engine = s.engine)
    (holds : ∀ n h, (t.port n).ce = .holding h → (s.group h.group).state = .loading ∨
      ∃ k, (s.port n).ce = .holding k ∧ h.group = k.group) : LoadTables t := by
  have group (g : GroupId) : t.group g = s.group g := by simp only [State.group, groups]
  have used : t.inUse = s.inUse := State.inUse_of_lists fun g => by rw [group]
  refine ⟨by rw [free, used]; exact hs.entries, used ▸ hs.points, fun g => by rw [group]; exact hs.counts g,
    queue ▸ hs.queueOnce, fun g => by rw [group, queue]; exact hs.queued g,
    fun g => by rw [group, engine]; exact hs.loading g, fun g => by rw [group]; exact hs.armed g, fun n h hn => ?_⟩
  rw [group]
  obtain hl | ⟨k, hk, e⟩ := holds n h hn
  · exact hl
  · exact e ▸ hs.holds n k hk

/-- Nothing that the tables speak of has changed. -/
theorem of_same {s t : State} (hs : LoadTables s) (groups : t.groups = s.groups) (free : t.freeList = s.freeList)
    (queue : t.loadQueue = s.loadQueue) (engine : t.engine = s.engine) (ce : ∀ n, (t.port n).ce = (s.port n).ce) :
    LoadTables t :=
  hs.of_ports groups free queue engine fun n h hn => .inr ⟨h, (ce n).symm.trans hn, rfl⟩

/-! ### Queueing and the load start -/

theorem enqueue {s : State} (hs : LoadTables s) {g : GroupId}
    (h : (s.group g).state = .staging ∨ (s.group g).state = .armed) : LoadTables (s.enqueueGroup g) := by
  have not_queued : g ∉ s.loadQueue := fun hm => by
    have := (hs.queued g).1 hm
    rcases h with h | h <;> rw [h] at this <;> cases this
  refine hs.of_setGroup_fewer g s.freeList (s.loadQueue ++ [g]) { s.group g with state := .queued } (List.Perm.refl _)
    (List.Sublist.refl _) ?_ ?_ (fun k hk => by simp [hk]) (by simp) ?_ (by simp)
  · rw [hs.counts g]
    rcases h with h | h <;> simp [h]
  · exact List.nodup_append.2 ⟨hs.queueOnce, List.nodup_singleton g, fun a ha b hb => by
      rw [List.mem_singleton.1 hb]; rintro rfl; exact not_queued ha⟩
  · rcases h with h | h <;> simp [h]

theorem enqueueAll {s : State} (hs : LoadTables s) {gs : List GroupId} (once : gs.Nodup)
    (h : ∀ g ∈ gs, (s.group g).state = .staging ∨ (s.group g).state = .armed) :
    LoadTables (gs.foldl State.enqueueGroup s) := by
  induction gs generalizing s with
  | nil => exact hs
  | cons g gs ih =>
    obtain ⟨hg, hgs⟩ := List.nodup_cons.1 once
    refine ih (hs.enqueue (h g List.mem_cons_self)) hgs fun k hk => ?_
    rw [State.group_enqueueGroup, if_neg (by rintro rfl; exact hg hk)]
    exact h k (List.mem_cons_of_mem _ hk)

/-- The start of a load that is due makes the tables whole again (R98). -/
theorem start {s : State} (hs : LoadTables s) : LoadSound s.startLoad.1 := by
  unfold State.startLoad
  split
  · next g rest idle head =>
    have hq : (s.group g).state = .queued := (hs.queued g).1 (by rw [head]; exact List.mem_cons_self)
    have once := hs.queueOnce
    rw [head] at once
    obtain ⟨hg, hrest⟩ := List.nodup_cons.1 once
    have none_loads (h : GroupId) : (s.group h).state ≠ .loading := fun e => by
      have := (hs.loading h).1 e
      rw [idle] at this
      cases this
    have self : (s.loadStarted g rest).group g = { s.group g with state := .loading } := by
      rw [State.group_loadStarted, if_pos rfl]
    have other (h : GroupId) (hne : h ≠ g) : (s.loadStarted g rest).group h = s.group h := by
      rw [State.group_loadStarted, if_neg (Ne.symm hne)]
    have lists : ∀ h, ((s.loadStarted g rest).group h).list = (s.group h).list := fun h => by
      rw [State.group_loadStarted]; split <;> rfl
    refine LoadTables.sound (s := s.loadStarted g rest) (hs.of_group g other ?_ ?_ ?_ hrest (fun h hne => ?_) ?_
      (fun h hne => ?_) ?_ ?_ fun n h hn => ?_) (fun e => by cases e)
    · rw [lists]; rfl
    · rw [State.inUse_of_lists lists]; exact hs.points
    · rw [self]
      refine iff_of_false (fun e => ?_) (by simp)
      have := (hs.counts g).1 e
      rw [hq] at this
      cases this
    · show h ∈ rest ↔ h ∈ s.loadQueue
      simp [head, hne]
    · rw [self]; exact iff_of_false hg (by simp)
    · rw [idle]; exact iff_of_false (fun e => hne (Option.some.inj e).symm) (by simp)
    · rw [self]; exact iff_of_true rfl rfl
    · rw [self]; intro e; cases e
    · exact absurd (hs.holds n h hn) (none_loads _)
  · next no_start =>
    refine hs.sound fun idle => ?_
    by_contra hne
    obtain ⟨g, rest, head⟩ := List.exists_cons_of_ne_nil hne
    exact no_start g rest idle head

/-! ### The pool and the groups -/

/-- Entries changed in nothing but their stagers. -/
theorem restage {s : State} (hs : LoadTables s) (n : Port) (p : Nat) : LoadTables (s.restage n p) := by
  unfold State.restage
  split
  · exact hs
  · next g e hm =>
    have same {α : Type} (f : StageEntry → α) (hf : ∀ x, f { x with stager := n } = f x) :
        ((s.group g).list.map (fun x => if x.point = p then { x with stager := n } else x)).map f =
          (s.group g).list.map f := by
      rw [List.map_map]
      refine List.map_congr_left fun x _ => ?_
      simp only [Function.comp]
      split
      · exact hf x
      · rfl
    refine hs.of_setGroup_fewer g s.freeList s.loadQueue _ ?_ ?_ ?_ hs.queueOnce (fun _ _ => Iff.rfl) (hs.queued g) Iff.rfl
      (hs.armed g)
    · rw [same StageEntry.entry fun _ => rfl]
    · rw [same StageEntry.point fun _ => rfl]
    · rw [List.map_eq_nil_iff]; exact hs.counts g

/-- A pool entry of an unmarked point joins the group's list (R72). -/
theorem join {s : State} (hs : LoadTables s) (n : Port) {p : Nat} {g : GroupId} {e : Nat} {rest : List Nat}
    (free : s.freeList = e :: rest) (unmarked : s.marked p = false) :
    LoadTables ({ s with freeList := rest }.updGroup g (GroupRec.join { entry := e, point := p, stager := n })) := by
  have fresh : p ∉ s.inUse.map StageEntry.point := fun hp => by
    obtain ⟨x, hx, hxp⟩ := List.mem_map.1 hp
    exact (s.marked_eq_false_iff p).1 unmarked x hx hxp
  have state_iff (st : GroupState) (h1 : st ≠ .empty) (h2 : st ≠ .staging) :
      ((s.group g).join { entry := e, point := p, stager := n }).state = st ↔ (s.group g).state = st := by
    simp only [GroupRec.join]
    split
    · next he => rw [he]; exact iff_of_false (Ne.symm h2) (Ne.symm h1)
    · exact Iff.rfl
  refine hs.of_setGroup g rest s.loadQueue ((s.group g).join { entry := e, point := p, stager := n }) ?_ ?_ ?_ hs.queueOnce
    (fun _ _ => Iff.rfl) (by rw [state_iff _ (by simp) (by simp)]; exact hs.queued g) (state_iff _ (by simp) (by simp))
    (fun h => hs.armed g ((state_iff _ (by simp) (by simp)).1 h))
  · rw [free, List.perm_iff_count]
    intro a
    simp only [GroupRec.join, List.map_append, List.count_append, List.map_cons, List.map_nil, List.count_cons,
      List.count_nil]
    omega
  · generalize ht : { s with freeList := rest, loadQueue := s.loadQueue }.setGroup g
      ((s.group g).join { entry := e, point := p, stager := n }) = t
    obtain ⟨before, after, h1, h2⟩ := State.inUse_around (s := s) (t := t) (g := g) fun h hne => by
      rw [← ht, State.group_setGroup_of_ne _ _ _ _ (Ne.symm hne)]; rfl
    have perm : (t.inUse.map StageEntry.point).Perm (p :: s.inUse.map StageEntry.point) := by
      rw [h1, h2, ← ht, State.group_setGroup_self, List.perm_iff_count]
      intro a
      simp only [GroupRec.join, List.map_append, List.count_append, List.map_cons, List.map_nil, List.count_cons,
        List.count_nil]
      omega
    exact perm.nodup_iff.2 (List.nodup_cons.2 ⟨fresh, hs.points⟩)
  · refine iff_of_false (by simp [GroupRec.join]) ?_
    simp only [GroupRec.join]
    split
    · simp
    · assumption

theorem newStage {s : State} (hs : LoadTables s) (n : Port) {p : Nat} {g : GroupId} (unmarked : s.marked p = false) :
    LoadTables (s.newStage n p g) := by
  unfold State.newStage
  split
  · exact hs
  · next e rest free =>
    have joined := hs.join n (g := g) free unmarked
    dsimp only
    split
    · exact joined.of_same rfl rfl rfl rfl fun m => by rw [State.port_raiseAll]; rfl
    · exact joined

/-- A group made EMPTY with all its entries given back, off the queue (R81, R82, R89). -/
theorem emptyGroup {s : State} (hs : LoadTables s) {g : GroupId} {free : List Nat} (hl : (s.group g).state ≠ .loading)
    (moved : free.Perm (s.freeList ++ (s.group g).list.map StageEntry.entry)) :
    LoadTables ({ s with freeList := free }.emptyGroup g) :=
  hs.of_setGroup_fewer g free (s.loadQueue.filter (fun q => q != g)) { s.group g with state := .empty, list := [] }
    (by simpa using moved) (by simp) (by simp) (hs.queueOnce.filter _) (fun h hne => by simp [hne]) (by simp)
    (iff_of_false (by simp) hl) (by simp)

theorem discard {s : State} (hs : LoadTables s) {g : GroupId} (hl : (s.group g).state ≠ .loading) :
    LoadTables (s.discard g) := hs.emptyGroup hl (List.Perm.refl _)

/-- No two entries of one list name one point, so taking out a point takes out one entry. -/
theorem split_off {s : State} (hs : LoadTables s) {g : GroupId} {e : StageEntry} (hmem : e ∈ (s.group g).list) :
    ((s.group g).list.map StageEntry.entry).Perm
      (e.entry :: ((s.group g).list.filter (fun x => x.point != e.point)).map StageEntry.entry) := by
  have once : ((s.group g).list.map StageEntry.point).Nodup := by
    obtain ⟨before, after, h1, -⟩ := State.inUse_around (s := s) (t := s) (g := g) fun _ _ => rfl
    refine hs.points.sublist ?_
    rw [h1, List.map_append, List.map_append]
    exact (List.sublist_append_right _ _).trans (List.sublist_append_left _ _)
  obtain ⟨l1, l2, hsplit⟩ := List.append_of_mem hmem
  have perm : ((s.group g).list.map StageEntry.point).Perm (e.point :: (l1 ++ l2).map StageEntry.point) := by
    rw [hsplit]; simp
  have ne_point : ∀ x ∈ l1 ++ l2, x.point ≠ e.point := fun x hx hxe =>
    (List.nodup_cons.1 (perm.nodup_iff.1 once)).1 (List.mem_map.2 ⟨x, hx, hxe⟩)
  have kept : (s.group g).list.filter (fun x => x.point != e.point) = l1 ++ l2 := by
    rw [hsplit, List.filter_append, List.filter_cons]
    simp only [bne_self_eq_false, Bool.false_eq_true, if_false]
    rw [← List.filter_append, List.filter_eq_self]
    intro x hx
    simpa using ne_point x hx
  rw [kept, hsplit]
  simp

theorem removeStage {s : State} (hs : LoadTables s) {p : Nat} {g : GroupId} {e : StageEntry}
    (hm : s.markOf p = some (g, e)) (hl : (s.group g).state ≠ .loading) : LoadTables (s.removeStage g e) := by
  obtain ⟨hmem, -⟩ := State.markOf_eq_some hm
  have back := hs.split_off hmem
  unfold State.removeStage
  dsimp only
  split
  · next hrest =>
    rw [hrest] at back
    exact hs.emptyGroup hl (back.symm.append_left s.freeList)
  · next x more hrest =>
    refine hs.of_setGroup_fewer g (s.freeList ++ [e.entry]) s.loadQueue
      { s.group g with list := (s.group g).list.filter (fun x => x.point != e.point) } ?_ (List.filter_sublist.map _) ?_
      hs.queueOnce (fun _ _ => Iff.rfl) (hs.queued g) Iff.rfl (hs.armed g)
    · rw [List.append_assoc]
      exact back.symm.append_left s.freeList
    · dsimp only
      rw [hrest, ← hs.counts g]
      exact iff_of_false (by simp) (List.ne_nil_of_mem hmem)

/-! ### Transfers and the end of a load -/

/-- While a load goes on its group has entries. -/
theorem entries_of_loading {s : State} (hs : LoadTables s) {g : GroupId} (he : s.engine = some g) :
    ∃ e rest, (s.group g).list = e :: rest := by
  refine List.exists_cons_of_ne_nil fun hn => ?_
  have h1 := (hs.counts g).1 hn
  rw [(hs.loading g).2 he] at h1
  cases h1

theorem entryDone {s : State} (hs : LoadTables s) {g : GroupId} (he : s.engine = some g) (p : Nat) (skip : Bool)
    (hl : ((s.entryDone g p skip).group g).list ≠ []) : LoadTables (s.entryDone g p skip) := by
  obtain ⟨e, rest, hlist⟩ := hs.entries_of_loading he
  have eq : s.entryDone g p skip = { s with load := s.load.after p skip, freeList := s.freeList ++ [e.entry] }.setGroup g
      { s.group g with list := rest } := by
    unfold State.entryDone State.returnHead
    have : ({ s with load := s.load.after p skip }.group g).list = e :: rest := hlist
    rw [this]
    rfl
  rw [eq, State.group_setGroup_self] at hl
  rw [eq]
  have counted : LoadTables { s with load := s.load.after p skip } := hs.of_same rfl rfl rfl rfl fun _ => rfl
  refine counted.of_setGroup_fewer g (s.freeList ++ [e.entry]) s.loadQueue { s.group g with list := rest } ?_ ?_ ?_
    hs.queueOnce (fun _ _ => Iff.rfl) (hs.queued g) Iff.rfl (hs.armed g)
  · have : ({ s with load := s.load.after p skip }.group g).list = e :: rest := hlist
    simp [this]
  · have : ({ s with load := s.load.after p skip }.group g).list = e :: rest := hlist
    rw [this]
    exact List.sublist_cons_self _ _
  · refine iff_of_false hl ?_
    simp [(hs.loading g).2 he]

/-- The end of a load ends every hold: none was on another group (R102, R103). -/
theorem not_holding_of_endHold {s : State} (hs : LoadTables s) {g : GroupId} (he : s.engine = some g) {n : Port}
    {partialLoad : Bool} {h : Hold} :
    ((s.port n).notifyLoad g partialLoad |>.endHold g).ce ≠ .holding h := by
  intro hh
  have same : ((s.port n).notifyLoad g partialLoad).ce = (s.port n).ce := by
    unfold PortState.notifyLoad
    split
    · dsimp only; split <;> rfl
    · rfl
  unfold PortState.endHold at hh
  split at hh
  · next k hk =>
    have on_g : k.group = g :=
      Option.some.inj (((hs.loading _).1 (hs.holds n k (same.symm.trans hk))).symm.trans he)
    rw [if_pos on_g] at hh
    cases hh
  · next not_holding => exact not_holding h hh

theorem loadEnded {s : State} (hs : LoadTables s) {g : GroupId} (he : s.engine = some g) (p : Nat) (skip : Bool)
    (hl : ((s.entryDone g p skip).group g).list = []) : LoadTables ((s.entryDone g p skip).loadEnded g) := by
  obtain ⟨e, rest, hlist⟩ := hs.entries_of_loading he
  have hlist' : ({ s with load := s.load.after p skip }.group g).list = e :: rest := hlist
  have eq : s.entryDone g p skip = { s with load := s.load.after p skip, freeList := s.freeList ++ [e.entry] }.setGroup g
      { s.group g with list := rest } := by
    unfold State.entryDone State.returnHead
    rw [hlist']
    rfl
  rw [eq, State.group_setGroup_self] at hl
  have hrest : rest = [] := hl
  subst hrest
  generalize hu : s.entryDone g p skip = u at eq
  have self : ∃ last, (u.loadEnded g).group g = { s.group g with state := .empty, list := [], lastLoad := last } := by
    refine ⟨some u.loadRecord, ?_⟩
    rw [State.group_loadEnded, if_pos rfl, eq, State.group_setGroup_self]
  have other (h : GroupId) (hne : h ≠ g) : (u.loadEnded g).group h = s.group h := by
    rw [State.group_loadEnded, if_neg (Ne.symm hne), eq]
    exact State.group_setGroup_of_ne _ _ _ _ (Ne.symm hne)
  have free : (u.loadEnded g).freeList = s.freeList ++ [e.entry] := by rw [eq]; rfl
  have queue : (u.loadEnded g).loadQueue = s.loadQueue := by rw [eq]; rfl
  have port (n : Port) : (u.loadEnded g).port n = ((s.port n).notifyLoad g (u.load.skipped != 0)).endHold g := by
    have hp : u.port n = s.port n := by rw [eq]; rfl
    rw [← hp, State.loadEnded, State.port_updAllPorts, State.port_updAllPorts]
    rfl
  obtain ⟨last, self⟩ := self
  have was_loading := (hs.loading g).2 he
  refine hs.of_group g other (by rw [free, self, hlist]; simp) (hs.points_of (fun h hne => by rw [other h hne])
    (by rw [self]; simp)) (by rw [self]; simp) (queue ▸ hs.queueOnce) (fun h _ => by rw [queue]) ?_ (fun h hne => ?_)
    (by rw [self]; exact iff_of_false (by simp) (by simp [State.loadEnded])) (by rw [self]; simp) fun n h hn => ?_
  · rw [queue, hs.queued g, self, was_loading]
    simp
  · rw [he]
    exact iff_of_false (by simp [State.loadEnded]) (fun e => hne (Option.some.inj e).symm)
  · rw [port] at hn
    exact absurd hn (hs.not_holding_of_endHold he)

/-! ### The resets -/

/-- Every group EMPTY, every entry free, and no engine holding. -/
theorem cleared {t : State} (free : t.freeList = allEntries) (groups : ∀ g, (t.group g).state = .empty ∧
      (t.group g).list = []) (queue : t.loadQueue = []) (engine : t.engine = none)
    (idle : ∀ n, (t.port n).ce = .idle) : LoadTables t := by
  have used := State.inUse_of_empty fun g => (groups g).2
  refine ⟨by rw [free, used]; simp, by rw [used]; exact List.nodup_nil, fun g => by simp [groups g], by simp [queue],
    fun g => by simp [queue, groups g], fun g => by simp [engine, groups g], fun g => by simp [groups g],
    fun n h hn => ?_⟩
  rw [idle n] at hn
  cases hn

end LoadTables

/-! ### Every move -/

/-- A change of one port begins no hold but on a LOADING group. -/
theorem PortMove.holding {s : State} {n : Port} {p : PortState} (h : PortMove s n p) {k : Hold} (hk : p.ce = .holding k) :
    (s.group k.group).state = .loading ∨ ∃ k', (s.port n).ce = .holding k' ∧ k.group = k'.group := by
  cases h with
  | engine e h => exact h k hk
  | _ => exact .inr ⟨k, hk, rfl⟩

/-- What a setting's write makes of a command engine: nothing, or it is IDLE. -/
theorem State.ce_writeItem (s : State) (i : Item) (m n : Port) (v : BitVec 64) :
    ((s.writeItem i m v).port n).ce = (s.port n).ce ∨ ((s.writeItem i m v).port n).ce = .idle := by
  have upd (u : State) (f : PortState → PortState) (hf : ∀ p, (f p).ce = p.ce ∨ (f p).ce = .idle) :
      ((u.updPort m f).port n).ce = (u.port n).ce ∨ ((u.updPort m f).port n).ce = .idle := by
    rw [State.port_updPort]
    split
    · exact hf _
    · exact .inl rfl
  have line (f : PortSettings → PortSettings) : ((s.writeLine m f).port n).ce = (s.port n).ce := by
    rw [State.writeLine, State.updCfg, State.updPort_updPort, State.port_updPort]
    split <;> rfl
  cases i with
  | parity | stopBits | rateDivisor | gapCount | crcEnforcement => exact .inl (line _)
  | viewSize => exact upd (s.updAllBanks _) _ fun _ => .inl rfl
  | watchSet | holdLimit | holdAction | level => exact upd s _ fun _ => .inl rfl
  | linkEnable =>
    simp only [State.writeItem, State.writeLinkEnable]
    split
    · exact .inl rfl
    · rw [State.updCfg, State.portReset, State.updPort_updPort]
      exact upd ((s.forget (.ce m)).updAllBanks (Bank.portReset m)) _ fun _ => .inr rfl
  | _ => exact .inl rfl

theorem LoadTables.of_ce {s t : State} (hs : LoadTables s) (groups : t.groups = s.groups) (free : t.freeList = s.freeList)
    (queue : t.loadQueue = s.loadQueue) (engine : t.engine = s.engine)
    (ce : ∀ n, (t.port n).ce = (s.port n).ce ∨ (t.port n).ce = .idle) : LoadTables t := by
  refine hs.of_ports groups free queue engine fun n h hn => ?_
  obtain e | e := ce n
  · exact .inr ⟨h, e.symm.trans hn, rfl⟩
  · rw [e] at hn; cases hn

/-- A change of the ports alone, no engine beginning to hold. -/
theorem LoadSound.of_ce {s t : State} (hs : LoadSound s) (groups : t.groups = s.groups) (free : t.freeList = s.freeList)
    (queue : t.loadQueue = s.loadQueue) (engine : t.engine = s.engine)
    (ce : ∀ n, (t.port n).ce = (s.port n).ce ∨ (t.port n).ce = .idle) : LoadSound t :=
  (hs.tables.of_ce groups free queue engine ce).sound (by rw [engine, queue]; exact hs.idle)

/-- The invariant speaks of the load tables and the engines alone. -/
theorem LoadSound.of_same {s t : State} (hs : LoadSound s) (groups : t.groups = s.groups) (free : t.freeList = s.freeList)
    (queue : t.loadQueue = s.loadQueue) (engine : t.engine = s.engine) (ports : t.ports = s.ports) : LoadSound t :=
  hs.of_ce groups free queue engine fun n => .inl (by simp only [State.port, ports])

/-- The tables kept, and the queue still empty when the engine is IDLE. -/
theorem LoadSound.of_tables {s t : State} (hs : LoadSound s) (ht : LoadTables t) (engine : t.engine = s.engine)
    (queue : s.loadQueue = [] → t.loadQueue = []) : LoadSound t := ht.sound fun e => queue (hs.idle (engine ▸ e))

theorem LoadSound.raiseAll {s : State} (hs : LoadSound s) (k : EventKind) : LoadSound (s.raiseAll k) :=
  hs.of_ce rfl rfl rfl rfl fun n => .inl (by rw [State.port_raiseAll]; rfl)

theorem State.ce_portReset (s : State) (m n : Port) :
    ((s.portReset m).port n).ce = (s.port n).ce ∨ ((s.portReset m).port n).ce = .idle := by
  rw [State.portReset, State.port_updPort]
  split
  · exact .inr rfl
  · exact .inl rfl

theorem LoadSound.transferred {s : State} (hs : LoadSound s) (p : Nat) (skip : Bool) :
    LoadSound (s.transferred p skip).1 := by
  obtain e | ⟨g, he, ⟨hl, e⟩ | ⟨hl, e⟩⟩ := s.transferred_cases p skip <;> rw [e]
  · exact hs
  · refine (hs.tables.entryDone he p skip hl).sound fun idle => ?_
    rw [State.entryDone_frame] at idle
    rw [he] at idle
    cases idle
  · exact (hs.tables.loadEnded he p skip hl).start

theorem LoadSound.of_quiet {s t : State} (h : Quiet s t) (hs : LoadSound s) : LoadSound t := by
  cases h with
  | port n p hp =>
    refine LoadTables.sound (s := s.setPort n p) (hs.tables.of_ports rfl rfl rfl rfl fun m k hk => ?_) hs.idle
    by_cases e : n = m
    · subst e
      rw [State.port_setPort_self] at hk
      exact hp.holding hk
    · rw [State.port_setPort_of_ne _ _ _ _ e] at hk
      exact .inr ⟨k, hk, rfl⟩
  | raise n k =>
    refine hs.of_ce rfl rfl rfl rfl fun m => .inl ?_
    rw [State.port_raise]
    split <;> rfl
  | raiseAll k => exact hs.raiseAll k
  | setting i m v =>
    exact hs.of_ce (by rw [State.writeItem_frame]) (by rw [State.writeItem_frame]) (by rw [State.writeItem_frame])
      (by rw [State.writeItem_frame]) fun n => s.ce_writeItem i m n v
  | portReset n => exact hs.of_ce rfl rfl rfl rfl (s.ce_portReset n)
  | warmReset =>
    have groups (g : GroupId) : s.warmReset.group g = (s.group g).warmReset := by
      rw [State.warmReset_frame]; exact State.getElem_mapAll _ _ _ _
    have idle (n : Port) : (s.warmReset.port n).ce = .idle := by
      unfold State.warmReset
      dsimp only
      split
      · rw [State.port_raiseAll, State.port_updAllPorts]; rfl
      · rw [State.port_updAllPorts]; rfl
    refine LoadTables.sound (.cleared ?_ (fun g => ?_) ?_ ?_ idle) fun _ => ?_
    · rw [State.warmReset_frame]; simp only [State.warmCore]
    · rw [groups]; exact ⟨rfl, rfl⟩
    all_goals rw [State.warmReset_frame]; rfl
  | finding f => exact LoadSound.raiseAll (s := { s with log := s.log.take f }) (hs.of_same rfl rfl rfl rfl rfl) _
  | release r => rw [State.release_frame]; exact hs.of_same rfl rfl rfl rfl rfl
  | restage n p =>
    refine hs.of_tables (hs.tables.restage n p) ?_ ?_ <;> rw [State.restage_frame]
    exact id
  | newStage n p g ha =>
    have unmarked : s.marked p = false := by
      unfold State.admission at ha
      split at ha
      · cases ha
      · split at ha
        · cases ha
        · next hm => simpa using hm
    refine hs.of_tables (hs.tables.newStage n unmarked) ?_ ?_ <;> rw [State.newStage_frame]
    exact id
  | discard g hl => exact hs.of_tables (hs.tables.discard hl) rfl fun e => by simp [State.discard, State.emptyGroup, e]
  | removeStage p g e hm hl =>
    refine hs.of_tables (hs.tables.removeStage hm hl) (by rw [State.removeStage_frame]) fun e => ?_
    unfold State.removeStage
    dsimp only
    split <;> simp [State.emptyGroup, e]
  | arm g hst hm =>
    exact hs.of_tables (hs.tables.of_state g { s.group g with state := .armed } rfl (by simp [hst]) (by simp [hst])
      (by simp [hst]) fun _ => hm) rfl id
  | queueAndStart g hst => exact (hs.tables.enqueue hst).start
  | cycle =>
    have counted : LoadSound s.countCycle := by
      have numbered : LoadSound { s with cycleNumber := s.cycleNumber + 1 } := hs.of_same rfl rfl rfl rfl rfl
      unfold State.countCycle
      dsimp only
      split
      · exact numbered.raiseAll _
      · exact numbered
    refine (LoadTables.enqueueAll counted.tables ((List.nodup_finRange 63).filter _) fun g hg => ?_).start
    have due := (List.mem_filter.1 hg).2
    simp only [GroupRec.due, Bool.or_eq_true, Bool.and_eq_true, beq_iff_eq] at due
    exact due.symm.imp And.right id
  | groupWrite g mode arms he =>
    exact hs.of_tables (hs.tables.of_state g { s.group g with mode := mode, armSet := arms } rfl Iff.rfl Iff.rfl Iff.rfl
      (fun ha => by rw [he] at ha; cases ha)) rfl id
  | transferred p skip => exact hs.transferred p skip
  | _ => exact hs.of_same rfl rfl rfl rfl rfl

theorem LoadSound.of_move {s t : State} (h : Move s t) (hs : LoadSound s) : LoadSound t := by
  cases h with
  | quiet q => exact hs.of_quiet q
  | repair i w =>
    obtain ⟨st, e⟩ := s.repairWord_eq i w
    rw [e]
    exact hs.of_same rfl rfl rfl rfl rfl
  | writeMap b op m l e =>
    refine hs.of_ce rfl rfl rfl rfl fun n => .inl ?_
    rw [State.port_updPort]
    split <;> rfl
  | insert n e =>
    refine hs.of_ce rfl rfl rfl rfl fun m => .inl ?_
    rw [State.port_updPort]
    split <;> rfl
  | stop => exact hs.of_ce rfl rfl rfl rfl fun n => .inr (congrArg PortState.ce (State.getElem_mapAll _ _ _ _))
  | cold roles =>
    have idle (n : Port) : ((s.coldReset roles).port n).ce = .idle := by
      show ((coldPorts roles)[n]).ce = .idle
      fin_cases n <;> rfl
    have group (g : GroupId) : (s.coldReset roles).group g = GroupRec.cold := by simp [State.coldReset, State.group]
    exact LoadTables.sound (.cleared (by simp only [State.coldReset]) (fun g => by rw [group]; exact ⟨rfl, rfl⟩) rfl rfl
      idle) fun _ => rfl
  | _ => exact hs.of_same rfl rfl rfl rfl rfl

/-- Settles O54: entries only pass between the free list and one group's list, and a group's state, its list and its place in
queue and engine change together. -/
theorem loadTablesStaySound : Obligations.LoadTablesStaySound :=
  fun _ _ hs h => step_keeps (fun _ _ hu => hu.of_same rfl rfl rfl rfl rfl) (fun move hu => hu.of_move move) h hs

end Sys2Proof.Machine
end

section
/-! Settings (11.2): what each write makes of the device items and of the port's items, and that it is read back. -/

namespace Sys2Proof.Machine

/-! ### Bytes and numbers -/

theorem setWidth_eq_low {w k : Nat} (v : BitVec w) (h : k ≤ w) : v.setWidth k = v.extractLsb' 0 k :=
  BitVec.setWidth_eq_extractLsb' h

/-- The number that bytes spell, most significant first. -/
def bytesNat (bs : List Byte) : Nat := bs.foldl (fun a b => 256 * a + b.toNat) 0

theorem toNat_valueOf_fold (bs : List Byte) (k : Nat) (acc : BitVec 64) (h : acc.toNat < 2 ^ (8 * k))
    (hk : k + bs.length ≤ 8) :
    (bs.foldl (fun (acc : BitVec 64) b => (acc <<< 8) ||| b.setWidth 64) acc).toNat =
      bs.foldl (fun a b => 256 * a + b.toNat) acc.toNat := by
  induction bs generalizing k acc with
  | nil => rfl
  | cons b bs ih =>
    have hk' : k + 1 + bs.length ≤ 8 := by simp at hk; omega
    have fits : 2 ^ (8 * k) * 256 ≤ 2 ^ 64 := by
      have : 2 ^ (8 * k) * 2 ^ 8 ≤ 2 ^ 64 := by
        rw [← Nat.pow_add]
        exact Nat.pow_le_pow_right (by omega) (by omega)
      simpa using this
    have hb : b.toNat < 2 ^ 8 := b.isLt
    have next : ((acc <<< 8) ||| b.setWidth 64).toNat = 256 * acc.toNat + b.toNat := by
      rw [BitVec.toNat_or, BitVec.toNat_shiftLeft, BitVec.toNat_setWidth, Nat.mod_eq_of_lt (a := b.toNat) (by omega),
        Nat.mod_eq_of_lt (by rw [Nat.shiftLeft_eq]; omega), ← Nat.shiftLeft_add_eq_or_of_lt hb, Nat.shiftLeft_eq]
      omega
    rw [List.foldl_cons, List.foldl_cons, ← next]
    refine ih (k + 1) _ ?_ hk'
    rw [next, show 8 * (k + 1) = 8 * k + 8 by omega, Nat.pow_add]
    omega

/-- Up to eight bytes spell their number without loss. -/
theorem toNat_valueOf {bs : List Byte} (h : bs.length ≤ 8) : (valueOf bs).toNat = bytesNat bs :=
  toNat_valueOf_fold bs 0 0 (by decide) (by omega)

theorem toNat_byte_at {w : Nat} (v : BitVec w) (i : Nat) : (v.extractLsb' i 8).toNat = v.toNat / 2 ^ i % 256 := by
  rw [BitVec.extractLsb'_toNat, Nat.shiftRight_eq_div_pow]

/-- A value sent in an item's length is the value (11.2). -/
theorem bytesNat_itemValueBytes (i : Item) {v : BitVec 64} (h : v.toNat < 2 ^ (8 * i.len)) :
    bytesNat (itemValueBytes i v) = v.toNat := by
  have len : i.len = 1 ∨ i.len = 2 ∨ i.len = 8 := by cases i <;> simp [Item.len]
  rcases len with e | e | e <;> rw [e] at h <;>
    simp only [itemValueBytes, e, bytes64, bytesNat, List.drop_succ_cons, List.drop_zero, List.foldl_cons, List.foldl_nil,
      toNat_byte_at, Nat.reduceSub] <;> omega

theorem length_itemValueBytes (i : Item) (v : BitVec 64) : (itemValueBytes i v).length = i.len := by
  cases i <;> rfl

theorem valueOf_itemValueBytes (i : Item) {v : BitVec 64} (h : v.toNat < 2 ^ (8 * i.len)) :
    valueOf (itemValueBytes i v) = v := by
  refine BitVec.eq_of_toNat_eq ?_
  rw [toNat_valueOf (by rw [length_itemValueBytes]; exact i.len_le), bytesNat_itemValueBytes i h]

/-! ### The items apart from the state -/

/-- An item's bytes by the device items and the port's items alone. -/
def Item.bytesIn (dev : DeviceSettings) (c : PortSettings) : Item → List Byte
  | .repairPolicy => [repairCode dev.repair]
  | .scrubGuarantee => [dev.guarantee]
  | .scrubInterval => halfBytes dev.scrubInterval
  | .scrubMask => halfBytes dev.scrubMask
  | .cycleSource => [sourceCode dev.source]
  | .cyclePeriod => halfBytes dev.period
  | .poolLow => halfBytes dev.poolLow
  | .viewSize => [c.viewSize]
  | .parity => [parityCode c.parity]
  | .stopBits => [if c.twoStops then 2 else 1]
  | .rateDivisor => [c.divisor]
  | .gapCount => [c.gapCount]
  | .crcEnforcement => [flagByte c.crcOn]
  | .linkEnable => [flagByte c.linkOn]
  | .watchSet => bytes64 c.watch
  | .holdLimit => [c.holdLimit]
  | .holdAction => [flagByte c.holdWaits]
  | .level k => [BitVec.ofNat 8 (c.levels[k]).val]

theorem State.itemBytes_eq (s : State) (m : Port) (i : Item) : s.itemBytes m i = i.bytesIn s.dev (s.port m).cfg := by
  cases i <;> rfl

/-- The device items after a write. -/
def Item.writtenDev (i : Item) (v : BitVec 64) (d : DeviceSettings) : DeviceSettings :=
  match i with
  | .repairPolicy => { d with repair := if v = 0 then .onAccess else .scrubOnly }
  | .scrubGuarantee => { d with guarantee := v.setWidth 8 }
  | .scrubInterval => { d with scrubInterval := v.setWidth 16 }
  | .scrubMask => { d with scrubMask := v.setWidth 16 }
  | .cycleSource => { d with source := sourceOf v }
  | .cyclePeriod => { d with period := v.setWidth 16 }
  | .poolLow => { d with poolLow := v.setWidth 16 }
  | _ => d

/-- A port's items after a write to that port. -/
def Item.writtenCfg (i : Item) (v : BitVec 64) (c : PortSettings) : PortSettings :=
  match i with
  | .viewSize => { c with viewSize := v.setWidth 8 }
  | .parity => { c with parity := parityOf v }
  | .stopBits => { c with twoStops := v == 2 }
  | .rateDivisor => { c with divisor := v.setWidth 8 }
  | .gapCount => { c with gapCount := v.setWidth 8 }
  | .crcEnforcement => { c with crcOn := v == 1 }
  | .linkEnable => { c with linkOn := v == 1 }
  | .watchSet => { c with watch := v }
  | .holdLimit => { c with holdLimit := v.setWidth 8 }
  | .holdAction => { c with holdWaits := v == 1 }
  | .level k => { c with levels := c.levels.set k (Fin.ofNat 8 v.toNat) }
  | _ => c

/-- The port after a write to it: its items, and what the item's rule attaches to the write (R63, R130, R135). -/
def PortState.written (p : PortState) (i : Item) (v : BitVec 64) : PortState :=
  match i with
  | .viewSize =>
    { p with
      cfg := i.writtenCfg v p.cfg, cache := p.cache.filter (fun e => decide (e.logical < (v.setWidth 8 : Byte).toNat)) }
  | .parity | .stopBits | .rateDivisor | .gapCount | .crcEnforcement => { p.toHunt with cfg := i.writtenCfg v p.cfg }
  | .linkEnable => if p.cfg.linkOn = (v == 1) then p else { p.portReset with cfg := i.writtenCfg v p.cfg }
  | _ => { p with cfg := i.writtenCfg v p.cfg }

theorem PortState.cfg_written (p : PortState) (i : Item) (v : BitVec 64) : (p.written i v).cfg = i.writtenCfg v p.cfg := by
  cases i with
  | linkEnable =>
    simp only [written, Item.writtenCfg]
    split
    · next h => rw [← h]
    · rfl
  | _ => rfl

namespace State

theorem setPort_port (s : State) (n : Port) : s.setPort n (s.port n) = s := by
  simp [setPort, port]

theorem dev_writeItem (s : State) (i : Item) (m : Port) (v : BitVec 64) : (s.writeItem i m v).dev = i.writtenDev v s.dev := by
  cases i with
  | linkEnable =>
    show (s.writeLinkEnable m v).dev = s.dev
    rw [writeLinkEnable_frame]
  | _ => rfl

theorem ports_writeItem (s : State) (i : Item) (m : Port) (v : BitVec 64) :
    (s.writeItem i m v).ports = (s.setPort m ((s.port m).written i v)).ports := by
  have unchanged : s.ports = (s.setPort m (s.port m)).ports := by rw [setPort_port]
  have line (f : PortSettings → PortSettings) :
      (s.writeLine m f).ports = (s.setPort m { (s.port m).toHunt with cfg := f (s.port m).cfg }).ports := by
    rw [writeLine, updCfg, updPort_updPort]
    rfl
  cases i with
  | parity | stopBits | rateDivisor | gapCount | crcEnforcement => exact line _
  | linkEnable =>
    simp only [writeItem, writeLinkEnable, PortState.written]
    split
    · exact unchanged
    · rw [updCfg, portReset, updPort_updPort]; rfl
  | viewSize | watchSet | holdLimit | holdAction | level => rfl
  | repairPolicy | scrubGuarantee | scrubInterval | scrubMask | cycleSource | cyclePeriod | poolLow => exact unchanged

theorem port_writeItem (s : State) (i : Item) (m n : Port) (v : BitVec 64) :
    (s.writeItem i m v).port n = if m = n then (s.port n).written i v else s.port n := by
  have ports := s.ports_writeItem i m v
  have : (s.writeItem i m v).port n = (s.setPort m ((s.port m).written i v)).port n := by simp only [port, ports]
  rw [this]
  split
  · next e => subst e; exact port_setPort_self _ _ _
  · next e => exact port_setPort_of_ne _ _ _ _ e

end State

/-! ### Reading back -/

theorem eq_zero_or_one {v : BitVec 64} (h : v.toNat ≤ 1) : v = 0 ∨ v = 1 := by
  have : v.toNat = 0 ∨ v.toNat = 1 := by omega
  exact this.imp (fun e => BitVec.eq_of_toNat_eq e) (fun e => BitVec.eq_of_toNat_eq e)

theorem eq_zero_to_two {v : BitVec 64} (h : v.toNat ≤ 2) : v = 0 ∨ v = 1 ∨ v = 2 := by
  have : v.toNat ≤ 1 ∨ v.toNat = 2 := by omega
  rcases this with h | h
  · exact (eq_zero_or_one h).imp_right .inl
  · exact .inr (.inr (BitVec.eq_of_toNat_eq h))

theorem eq_zero_to_three {v : BitVec 64} (h : v.toNat ≤ 3) : v = 0 ∨ v = 1 ∨ v = 2 ∨ v = 3 := by
  have : v.toNat ≤ 2 ∨ v.toNat = 3 := by omega
  rcases this with h | h
  · rcases eq_zero_to_two h with h | h | h <;> simp [h]
  · exact .inr (.inr (.inr (BitVec.eq_of_toNat_eq h)))

/-- The item written holds the value, in its length. -/
theorem Item.bytesIn_written_self (i : Item) (v : BitVec 64) (d : DeviceSettings) (c : PortSettings)
    (hr : i.inRange v = true) (hl : v.toNat < 2 ^ (8 * i.len)) :
    i.bytesIn (i.writtenDev v d) (i.writtenCfg v c) = itemValueBytes i v := by
  have byte : [(v.setWidth 8 : Byte)] = [v.extractLsb' 0 8] := by rw [setWidth_eq_low v (by omega)]
  have bytes2 : halfBytes (v.setWidth 16) = [v.extractLsb' 8 8, v.extractLsb' 0 8] := by
    have at_byte (j : Nat) (hj : j + 8 ≤ 16) : (v.setWidth 16 : Half).extractLsb' j 8 = v.extractLsb' j 8 := by
      refine BitVec.eq_of_getLsbD_eq fun k hk => ?_
      have inside : j + k < 16 := by omega
      simp only [BitVec.getLsbD_extractLsb', BitVec.getLsbD_setWidth, inside, decide_true, Bool.true_and]
    simp only [halfBytes, at_byte 8 (by omega), at_byte 0 (by omega)]
  cases i <;> simp only [Item.inRange, decide_eq_true_eq, Bool.or_eq_true, beq_iff_eq] at hr
  case scrubInterval | scrubMask | cyclePeriod | poolLow => exact bytes2
  case scrubGuarantee | viewSize | rateDivisor | gapCount | holdLimit => exact byte
  case watchSet => rfl
  case repairPolicy | crcEnforcement | linkEnable | holdAction => rcases eq_zero_or_one hr with rfl | rfl <;> rfl
  case cycleSource => rcases eq_zero_to_three hr with rfl | rfl | rfl | rfl <;> rfl
  case parity => rcases eq_zero_to_two hr with rfl | rfl | rfl <;> rfl
  case stopBits => rcases hr with rfl | rfl <;> rfl
  case level k =>
    have : Fin.ofNat 8 v.toNat = ⟨v.toNat, by omega⟩ := Fin.ext (Nat.mod_eq_of_lt (by omega))
    simp only [Item.bytesIn, Item.writtenCfg, this, Fin.getElem_fin, Vector.getElem_set_self]
    show [_] = [v.extractLsb' 0 8]
    rw [← setWidth_eq_low v (by omega)]
    rfl

/-- No other item has changed. -/
theorem Item.bytesIn_written_of_ne (i j : Item) (v : BitVec 64) (d : DeviceSettings) (c : PortSettings) (h : j ≠ i) :
    j.bytesIn (i.writtenDev v d) (i.writtenCfg v c) = j.bytesIn d c := by
  cases i with
  | level k =>
    cases j with
    | level k' =>
      have hne : k.val ≠ k'.val := fun e => h (by rw [Fin.ext e])
      simp [Item.bytesIn, Item.writtenCfg, hne]
    | _ => rfl
  | _ => cases j <;> first | rfl | exact absurd rfl h

/-- A device item is read at every port, a port's item at its port alone. -/
theorem Item.written_of_kind (i : Item) (v : BitVec 64) (d : DeviceSettings) (c : PortSettings) :
    (i.kind = .device → i.writtenCfg v c = c) ∧ (i.kind ≠ .device → i.writtenDev v d = d) := by
  cases i <;> simp [Item.kind, Item.writtenCfg, Item.writtenDev]

/-- Settles O33: a write changes the one item in the device's items or in the port's, and its bytes are the value's. -/
theorem settingWriteReadsBack : Obligations.SettingWriteReadsBack := by
  intro s i j m m' v hr hl
  obtain ⟨no_cfg, no_dev⟩ := i.written_of_kind v s.dev (s.port m').cfg
  have read_back : j.bytesIn (i.writtenDev v s.dev) (i.writtenCfg v (s.port m').cfg) =
      if j = i then itemValueBytes i v else j.bytesIn s.dev (s.port m').cfg := by
    split
    · next e => rw [e]; exact i.bytesIn_written_self v _ _ hr hl
    · next e => exact i.bytesIn_written_of_ne j v _ _ e
  rw [State.itemBytes_eq, State.itemBytes_eq, State.dev_writeItem, State.port_writeItem]
  by_cases hm : m = m'
  · rw [if_pos hm, PortState.cfg_written, read_back]
    simp [hm]
  · rw [if_neg hm]
    by_cases hk : i.kind = .device
    · rw [no_cfg hk] at read_back
      rw [read_back]
      simp [hk]
    · rw [no_dev hk]
      simp [hk, Ne.symm hm]

/-! ### What a write changes besides its item -/

theorem Receiver.dropped_eq (r : Receiver) : r.dropped = if r = .taking then .waitHigh else r := by cases r <;> rfl

theorem PortState.toHunt_eq (p : PortState) :
    p.toHunt = { p with rx := if p.rx = .taking then .waitHigh else p.rx, asm := .hunt, gapTimer := none } := by
  rw [← Receiver.dropped_eq]; rfl

/-- A line setting's write (R130). -/
theorem State.writeLine_eq (s : State) (m : Port) (f : PortSettings → PortSettings) :
    s.writeLine m f = s.setPort m { s.port m with
      cfg := f (s.port m).cfg, rx := if (s.port m).rx = .taking then .waitHigh else (s.port m).rx
      asm := .hunt, gapTimer := none } := by
  rw [State.writeLine, State.updCfg, State.updPort_updPort, State.updPort, PortState.toHunt_eq]

theorem State.freshCycleTimer_eq (s : State) :
    s.freshCycleTimer = if s.dev.source = .timer then some s.dev.period.toNat else none := by
  unfold State.freshCycleTimer
  cases s.dev.source <;> rfl

/-- Settles O34: each write, item by item, by the definition of its effect. -/
theorem settingWriteEffects : Obligations.SettingWriteEffects := by
  intro s m v q line own
  refine ⟨rfl, rfl, rfl, rfl, ?cycleSource, ?cyclePeriod, rfl, ⟨s.bank_writeViewSize m v, rfl⟩, s.writeLine_eq m _,
    s.writeLine_eq m _, s.writeLine_eq m _, s.writeLine_eq m _, s.writeLine_eq m _, ?linkEnable, rfl, rfl, rfl,
    fun _ => rfl⟩
  case cycleSource => rintro src rfl; rfl
  case cyclePeriod =>
    show ({ { s with dev := { s.dev with period := v.setWidth 16 } } with
      cycleTimer := State.freshCycleTimer { s with dev := { s.dev with period := v.setWidth 16 } } } : State) = _
    rw [State.freshCycleTimer_eq]
  case linkEnable =>
    have cfg : ((s.portReset m).port m).cfg = q.cfg := by rw [State.portReset, State.port_updPort_self]; rfl
    simp only [State.writeItem, State.writeLinkEnable, State.updCfg, State.updPort, cfg]
    rfl

end Sys2Proof.Machine
end

section
/-! The ports under every move (R53, R121, R124, R129, R159, R161): what each makes of one port, and the bounds it keeps. -/

namespace Sys2Proof.Machine

/-- What a move other than a setting's write and a cold reset makes of a port. -/
inductive PortChange : PortState → PortState → Prop
  | move {s : State} {n : Port} {q : PortState} (h : PortMove s n q) : PortChange (s.port n) q
  | raise (p : PortState) (k : EventKind) (h : k.isSticky = true) : PortChange p (p.raise k)
  | reset (p : PortState) : PortChange p p.portReset
  | notify (p : PortState) (g : GroupId) (partialLoad : Bool) : PortChange p (p.notifyLoad g partialLoad)
  | endHold (p : PortState) (g : GroupId) : PortChange p (p.endHold g)
  | insert (p : PortState) (e : CacheEntry) (h : e.logical < p.cfg.viewSize.toNat) : PortChange p (p.insertEntry e)
  | invalidate (p : PortState) (l : Nat) : PortChange p (p.invalidate l)
  | stopped (p : PortState) : PortChange p p.stopped

/-- A chain of changes of a port. -/
abbrev PortChanges : PortState → PortState → Prop := Relation.ReflTransGen PortChange

/-- A property of a port that every change keeps. -/
theorem PortChanges.keep {P : PortState → Prop} (kept : ∀ {p q}, PortChange p q → P p → P q) {p q : PortState}
    (h : PortChanges p q) (hp : P p) : P q := by
  induction h with
  | refl => exact hp
  | tail _ change ih => exact kept change ih

theorem PortChanges.of_eq {p q : PortState} (h : q = p) : PortChanges p q := h ▸ .refl

namespace State

theorem ports_eq_iff {s t : State} : t.ports = s.ports ↔ ∀ n, t.port n = s.port n :=
  ⟨fun h n => by simp only [port, h], fun h => Vector.ext fun n hn => h ⟨n, hn⟩⟩

/-- One port changed by a function. -/
theorem changes_updPort {s : State} {m : Port} {f : PortState → PortState} (h : PortChange (s.port m) (f (s.port m)))
    (n : Port) : PortChanges (s.port n) ((s.updPort m f).port n) := by
  rw [port_updPort]
  split
  · next e => exact .single (e ▸ h)
  · exact .refl

theorem changes_raiseAll (s : State) (k : EventKind) (h : k.isSticky = true) (n : Port) :
    PortChanges (s.port n) ((s.raiseAll k).port n) := by
  rw [port_raiseAll]
  exact .single (.raise _ k h)

theorem port_warmReset (s : State) (n : Port) :
    s.warmReset.port n = if s.engine.isSome then (s.port n).portReset.raise .torn else (s.port n).portReset := by
  have cut : s.tornNow.isSome = s.engine.isSome := by rw [tornNow, Option.isSome_map]
  have each (n : Port) : (s.warmCore.updAllPorts PortState.portReset).port n = (s.port n).portReset := port_updAllPorts _ _ _
  unfold warmReset
  dsimp only
  rw [cut]
  split
  · rw [port_raiseAll, each]
  · exact each n

theorem port_stopPart (s : State) (n : Port) : s.stopPart.port n = (s.port n).stopped := getElem_mapAll _ _ _ _

theorem port_coldReset (s : State) (roles : BitVec 4) (n : Port) :
    (s.coldReset roles).port n = PortState.cold (roles.getLsbD n.val) := by
  show (coldPorts roles)[n] = _
  fin_cases n <;> rfl

theorem port_loadEnded (s : State) (g : GroupId) (n : Port) :
    (s.loadEnded g).port n = ((s.port n).notifyLoad g (s.load.skipped != 0)).endHold g := by
  rw [loadEnded, port_updAllPorts, port_updAllPorts]
  rfl

theorem port_newStage (s : State) (m : Port) (p : Nat) (g : GroupId) (n : Port) :
    (s.newStage m p g).port n = s.port n ∨ (s.newStage m p g).port n = (s.port n).raise .poolLow := by
  unfold newStage
  split
  · exact .inl rfl
  · dsimp only
    split
    · exact .inr (port_raiseAll _ _ _)
    · exact .inl rfl

theorem port_transferred (s : State) (p : Nat) (skip : Bool) (n : Port) :
    (s.transferred p skip).1.port n = s.port n ∨
      ∃ g partialLoad, (s.transferred p skip).1.port n = ((s.port n).notifyLoad g partialLoad).endHold g := by
  obtain e | ⟨g, -, ⟨-, e⟩ | ⟨-, e⟩⟩ := s.transferred_cases p skip <;> rw [e]
  · exact .inl rfl
  · rw [entryDone_frame]; exact .inl rfl
  · refine .inr ⟨g, (s.load.after p skip).skipped != 0, ?_⟩
    rw [startLoad_frame]
    refine (port_loadEnded _ _ _).trans ?_
    rw [entryDone_frame]
    rfl

end State

/-! ### Every move -/

/-- A quiet move other than a setting's write changes each port and keeps every setting of the device. -/
theorem Quiet.port_changes {s t : State} (h : Quiet s t) :
    (t.dev = s.dev ∧ ∀ n, PortChanges (s.port n) (t.port n)) ∨
      ∃ i m v, i.inRange v = true ∧ v.toNat < 2 ^ (8 * i.len) ∧ t = s.writeItem i m v := by
  have same {u : State} (hd : u.dev = s.dev) (hp : u.ports = s.ports) :
      u.dev = s.dev ∧ ∀ n, PortChanges (s.port n) (u.port n) := ⟨hd, fun n => .of_eq (State.ports_eq_iff.1 hp n)⟩
  cases h with
  | setting i m v hr hl => exact .inr ⟨i, m, v, hr, hl, rfl⟩
  | port n p hp => exact .inl ⟨rfl, s.changes_updPort (f := fun _ => p) (.move hp)⟩
  | raise n k hk => exact .inl ⟨rfl, s.changes_updPort (.raise _ k hk)⟩
  | raiseAll k hk => exact .inl ⟨rfl, s.changes_raiseAll k hk⟩
  | portReset n =>
    exact .inl ⟨rfl, ((s.forget (.ce n)).updAllBanks (Bank.portReset n)).changes_updPort (.reset _)⟩
  | warmReset =>
    refine .inl ⟨by rw [State.warmReset_frame]; rfl, fun n => ?_⟩
    rw [State.port_warmReset]
    split
    · exact (Relation.ReflTransGen.single (.reset _)).tail (.raise _ _ rfl)
    · exact .single (.reset _)
  | finding f =>
    refine .inl ⟨rfl, State.changes_raiseAll { s with log := s.log.take f } _ ?_⟩
    split <;> rfl
  | newStage m p g =>
    refine .inl ⟨by rw [State.newStage_frame], fun n => ?_⟩
    obtain e | e := s.port_newStage m p g n <;> rw [e]
    exact .single (.raise _ _ rfl)
  | cycle =>
    rw [State.startLoad_frame, State.countCycle_queueDue_frame]
    refine .inl ⟨rfl, fun n => ?_⟩
    show PortChanges (s.port n) (s.countCycle.port n)
    rw [State.port_countCycle]
    split
    · exact .refl
    · exact .single (.raise _ _ rfl)
  | transferred p skip =>
    refine .inl ⟨by rw [State.transferred_frame], fun n => ?_⟩
    obtain e | ⟨g, b, e⟩ := s.port_transferred p skip n <;> rw [e]
    exact (Relation.ReflTransGen.single (.notify _ g b)).tail (.endHold _ g)
  | release r => exact .inl (same (by rw [State.release_frame]) (by rw [State.release_frame]))
  | restage n p => exact .inl (same (by rw [State.restage_frame]) (by rw [State.restage_frame]))
  | removeStage p g e => exact .inl (same (by rw [State.removeStage_frame]) (by rw [State.removeStage_frame]))
  | queueAndStart g => exact .inl (same (by rw [State.startLoad_frame]; rfl) (by rw [State.startLoad_frame]; rfl))
  | _ => exact .inl (same rfl rfl)

/-- Every move changes each port and keeps the device's settings, or writes a setting, or is a cold reset. -/
theorem Move.port_changes {s t : State} (h : Move s t) :
    (t.dev = s.dev ∧ ∀ n, PortChanges (s.port n) (t.port n)) ∨
      (∃ i m v, i.inRange v = true ∧ v.toNat < 2 ^ (8 * i.len) ∧ t = s.writeItem i m v) ∨
      ∃ roles, t = s.coldReset roles := by
  cases h with
  | quiet q => exact q.port_changes.imp_right .inl
  | repair i w =>
    obtain ⟨st, e⟩ := s.repairWord_eq i w
    rw [e]
    exact .inl ⟨rfl, fun n => .refl⟩
  | writeMap b op m l e => exact .inl ⟨rfl, (s.writeWord op.slot .live e).changes_updPort (.invalidate _ l)⟩
  | insert n e he => exact .inl ⟨rfl, s.changes_updPort (.insert _ e he)⟩
  | stop => exact .inl ⟨rfl, fun n => by rw [State.port_stopPart]; exact .single (.stopped _)⟩
  | cold roles => exact .inr (.inr ⟨roles, rfl⟩)
  | _ => exact .inl ⟨rfl, fun n => .refl⟩

/-! ### The translation cache (R53) -/

/-- At most eight entries, one to a logical page, all below the view size. -/
structure PortState.CacheOk (p : PortState) : Prop where
  eight : p.cache.length ≤ 8
  once : (p.cache.map CacheEntry.logical).Nodup
  below : ∀ e ∈ p.cache, e.logical < p.cfg.viewSize.toNat

theorem cacheBounded_iff (s : State) : CacheBounded s ↔ ∀ n, (s.port n).CacheOk :=
  forall_congr' fun _ => ⟨fun ⟨eight, once, below⟩ => ⟨eight, once, below⟩, fun h => ⟨h.eight, h.once, h.below⟩⟩

theorem logical_not_mem_cacheWithout (l : Nat) (c : List CacheEntry) : l ∉ (cacheWithout l c).map CacheEntry.logical := by
  simp [cacheWithout]

namespace PortState.CacheOk

variable {p : PortState}

/-- Entries taken out. -/
theorem sublist (h : p.CacheOk) {q : PortState} (hc : q.cache.Sublist p.cache)
    (hv : ∀ e ∈ q.cache, e.logical < p.cfg.viewSize.toNat → e.logical < q.cfg.viewSize.toNat) : q.CacheOk :=
  ⟨hc.length_le.trans h.eight, h.once.sublist (hc.map _), fun e he => hv e he (h.below e (hc.subset he))⟩

theorem same (h : p.CacheOk) {q : PortState} (hc : q.cache = p.cache) (hv : q.cfg = p.cfg) : q.CacheOk :=
  h.sublist (hc ▸ List.Sublist.refl _) fun _ _ hb => hv ▸ hb

theorem empty {q : PortState} (hc : q.cache = []) : q.CacheOk :=
  ⟨by simp [hc], by simp [hc], by simp [hc]⟩

/-- One entry in front, the page's own taken out. -/
theorem cons (h : p.CacheOk) (e : CacheEntry) {c : List CacheEntry} (hc : c.Sublist (cacheWithout e.logical p.cache))
    (short : c.length ≤ 7) (hv : e.logical < p.cfg.viewSize.toNat) : CacheOk { p with cache := e :: c } := by
  have sub : c.Sublist p.cache := hc.trans List.filter_sublist
  refine ⟨Nat.succ_le_succ short, ?_, ?_⟩
  · exact List.nodup_cons.2 ⟨fun hm => logical_not_mem_cacheWithout _ _ ((hc.map _).subset hm), h.once.sublist (sub.map _)⟩
  · intro x hx
    rcases List.mem_cons.1 hx with rfl | hx
    · exact hv
    · exact h.below x (sub.subset hx)

theorem insertEntry (h : p.CacheOk) (e : CacheEntry) (hv : e.logical < p.cfg.viewSize.toNat) :
    (p.insertEntry e).CacheOk :=
  h.cons e (List.take_sublist 7 _) (List.length_take_le _ _) hv

theorem touch (h : p.CacheOk) (l : Nat) : (p.touch l).CacheOk := by
  unfold PortState.touch
  split
  · next e he =>
    have hm : e ∈ p.cache := List.mem_of_find?_eq_some he
    have hl : e.logical = l := by simpa using List.find?_some he
    have shorter : (cacheWithout l p.cache).length < p.cache.length :=
      List.length_filter_lt_length_iff_exists.2 ⟨e, hm, by simp [hl]⟩
    have := h.eight
    exact h.cons e (by rw [hl]) (by omega) (h.below e hm)
  · exact h

theorem of_cacheMove (h : p.CacheOk) {c : List CacheEntry} (hc : CacheMove p c) : CacheOk { p with cache := c } := by
  cases hc with
  | touch l =>
    have kept : (p.touch l).cfg = p.cfg := by unfold PortState.touch; split <;> rfl
    exact (h.touch l).same rfl kept.symm
  | remove l => exact h.sublist List.filter_sublist fun _ _ hb => hb
  | flush => exact empty rfl

theorem of_change {q : PortState} (h : PortChange p q) (hp : p.CacheOk) : q.CacheOk := by
  cases h with
  | move hm =>
    cases hm with
    | cache c hc => exact hp.of_cacheMove hc
    | _ => exact hp.same rfl rfl
  | reset => exact empty rfl
  | notify _ g b =>
    unfold PortState.notifyLoad
    split
    · dsimp only
      split <;> exact hp.same rfl rfl
    · exact hp
  | endHold g =>
    unfold PortState.endHold
    split
    · split
      · exact hp.same rfl rfl
      · exact hp
    · exact hp
  | insert _ e he => exact hp.insertEntry e he
  | invalidate _ l => exact hp.sublist List.filter_sublist fun _ _ hb => hb
  | _ => exact hp.same rfl rfl

theorem written (h : p.CacheOk) (i : Item) (v : BitVec 64) : (p.written i v).CacheOk := by
  cases i with
  | viewSize =>
    exact h.sublist List.filter_sublist fun e he _ => of_decide_eq_true (List.mem_filter.1 he).2
  | linkEnable =>
    unfold PortState.written
    dsimp only
    split
    · exact h
    · exact empty rfl
  | _ => exact h.sublist (List.Sublist.refl _) fun _ _ hb => hb

end PortState.CacheOk

/-! ### The link side and the events (R124, R126, R129, R159, R161) -/

theorem EventKind.isSticky_bits {k : EventKind} (h : k.isSticky = true) :
    k.bit.getLsbD 2 = false ∧ k.bit.getLsbD 4 = false := by
  cases k with
  | linkError | groupLoaded => cases h
  | _ => exact ⟨rfl, rfl⟩

theorem groupBit_zero (g : GroupId) : (groupBit g).getLsbD 0 = false := by
  simp [groupBit, GroupId.num]

namespace PortState.bounded

variable {p : PortState}

/-- The assembler hunting with its gap timer stopped, and the queue as it was. -/
theorem toHunt (h : p.bounded) {q : PortState} (ha : q.asm = .hunt) (hg : q.gapTimer = none) (hq : q.queue = p.queue)
    (hs : q.sticky = p.sticky) (hl : q.loaded = p.loaded) : q.bounded :=
  ⟨by rw [ha]; trivial, fun _ => hg, hq ▸ h.queue, hq ▸ h.frames, hs ▸ h.derived, hl ▸ h.loaded⟩

/-- Buffers, engine, cache, settings and flags of the link may be any. -/
theorem same (h : p.bounded) {q : PortState} (ha : q.asm = p.asm) (hg : q.gapTimer = p.gapTimer) (hq : q.queue = p.queue)
    (hs : q.sticky = p.sticky) (hl : q.loaded = p.loaded) : q.bounded :=
  ⟨ha ▸ h.assembler, fun e => hg.trans (h.gap (ha ▸ e)), hq ▸ h.queue, hq ▸ h.frames, hs ▸ h.derived, hl ▸ h.loaded⟩

theorem raise (h : p.bounded) {k : EventKind} (hk : k.isSticky = true) : (p.raise k).bounded := by
  obtain ⟨two, four⟩ := EventKind.isSticky_bits hk
  refine ⟨h.assembler, h.gap, h.queue, h.frames, ?_, h.loaded⟩
  simp only [PortState.raise, BitVec.getLsbD_or, two, four, h.derived, Bool.or_self, and_self]

/-- A port whose link side and events are in their cold state (R137, R165). -/
theorem fresh {q : PortState} (ha : q.asm = .hunt) (hg : q.gapTimer = none) (hq : q.queue = []) (hs : q.sticky = 1)
    (hl : q.loaded = 0) : q.bounded :=
  ⟨by rw [ha]; trivial, fun _ => hg, by simp [hq], by simp [hq], by rw [hs]; decide, by rw [hl]; decide⟩

theorem portReset (p : PortState) : p.portReset.bounded := fresh rfl rfl rfl rfl rfl

theorem cold (supervisor : Bool) : (PortState.cold supervisor).bounded := fresh rfl rfl rfl rfl rfl

theorem notifyLoad (h : p.bounded) (g : GroupId) (partialLoad : Bool) : (p.notifyLoad g partialLoad).bounded := by
  have told : bounded { p with loaded := p.loaded ||| groupBit g } :=
    ⟨h.assembler, h.gap, h.queue, h.frames, h.derived, by simp only [BitVec.getLsbD_or, h.loaded, groupBit_zero, Bool.or_self]⟩
  unfold PortState.notifyLoad
  split
  · dsimp only
    split
    · exact told.raise rfl
    · exact told
  · exact h

theorem endHold (h : p.bounded) (g : GroupId) : (p.endHold g).bounded := by
  unfold PortState.endHold
  split
  · split
    · exact h.same rfl rfl rfl rfl rfl
    · exact h
  · exact h

theorem of_portMove {s : State} {n : Port} {q : PortState} (hm : PortMove s n q) (h : (s.port n).bounded) : q.bounded := by
  cases hm with
  | link rx a gap errs hs hg => exact ⟨hs h.assembler, hg h.gap, h.queue, h.frames, h.derived, h.loaded⟩
  | enqueue f hq hf a gap ha hg =>
    refine ⟨by rw [ha]; trivial, fun _ => hg, by rw [List.length_append]; exact Nat.succ_le_succ hq, fun x hx => ?_,
      h.derived, h.loaded⟩
    rcases List.mem_append.1 hx with hx | hx
    · exact h.frames x hx
    · rw [List.mem_singleton.1 hx]; exact hf h.assembler
  | dequeue f rest hq =>
    have shorter := h.queue
    rw [hq, List.length_cons] at shorter
    exact ⟨h.assembler, h.gap, by show rest.length ≤ 4; omega, fun x hx => h.frames x (by rw [hq]; exact .tail _ hx), h.derived,
      h.loaded⟩
  | clear errs mask keep =>
    refine ⟨h.assembler, h.gap, h.queue, h.frames, by simp only [BitVec.getLsbD_and, h.derived, Bool.false_and, and_self], ?_⟩
    cases keep
    · simp
    · exact h.loaded
  | _ => exact h.same rfl rfl rfl rfl rfl

theorem of_change {q : PortState} (h : PortChange p q) (hp : p.bounded) : q.bounded := by
  cases h with
  | move hm => exact of_portMove hm hp
  | raise _ k hk => exact hp.raise hk
  | reset => exact portReset p
  | notify _ g b => exact hp.notifyLoad g b
  | endHold _ g => exact hp.endHold g
  | stopped => exact ⟨hp.assembler, fun _ => rfl, hp.queue, hp.frames, hp.derived, hp.loaded⟩
  | _ => exact hp.same rfl rfl rfl rfl rfl

theorem written (h : p.bounded) (i : Item) (v : BitVec 64) : (p.written i v).bounded := by
  cases i with
  | parity | stopBits | rateDivisor | gapCount | crcEnforcement => exact h.toHunt rfl rfl rfl rfl rfl
  | linkEnable =>
    unfold PortState.written
    dsimp only
    split
    · exact h
    · exact fresh rfl rfl rfl rfl rfl
  | _ => exact h.same rfl rfl rfl rfl rfl

end PortState.bounded

/-! ### The settings (11.2) -/

theorem PortChange.cfg {p q : PortState} (h : PortChange p q) : q.cfg = p.cfg := by
  cases h with
  | move hm => cases hm <;> rfl
  | notify g b =>
    unfold PortState.notifyLoad
    split
    · dsimp only; split <;> rfl
    · rfl
  | endHold g =>
    unfold PortState.endHold
    split
    · split <;> rfl
    · rfl
  | _ => rfl

theorem PortChanges.cfg {p q : PortState} (h : PortChanges p q) : q.cfg = p.cfg :=
  h.keep (P := fun x => x.cfg = p.cfg) (fun change hx => change.cfg.trans hx) rfl

/-- The cold defaults lie in their ranges. -/
theorem Item.inRange_cold (i : Item) :
    i.inRange (valueOf (i.bytesIn DeviceSettings.cold PortSettings.cold)) = true := by
  cases i with
  | level k => revert k; decide
  | _ => decide

theorem settingsInRange_of_same {s t : State} (hd : t.dev = s.dev) (hc : ∀ n, (t.port n).cfg = (s.port n).cfg)
    (h : SettingsInRange s) : SettingsInRange t := by
  intro n i
  rw [State.itemBytes_eq, hd, hc, ← State.itemBytes_eq]
  exact h n i

theorem settingsInRange_writeItem {s : State} (h : SettingsInRange s) (i : Item) (m : Port) (v : BitVec 64)
    (hr : i.inRange v = true) (hl : v.toNat < 2 ^ (8 * i.len)) : SettingsInRange (s.writeItem i m v) := by
  intro n j
  rw [settingWriteReadsBack s i j m n v hr hl]
  split
  · next e => rw [e.1, valueOf_itemValueBytes i hl]; exact hr
  · exact h n j

theorem settingsInRange_cold {t : State} (hd : t.dev = DeviceSettings.cold)
    (hc : ∀ n, (t.port n).cfg = PortSettings.cold) : SettingsInRange t := by
  intro n i
  rw [State.itemBytes_eq, hd, hc]
  exact i.inRange_cold

/-! ### The invariants -/

/-- A property of each port on its own that every change, every setting's write and cold reset keep is kept by every step. -/
theorem step_keeps_ports {P : PortState → Prop} (change : ∀ {p q}, PortChange p q → P p → P q)
    (written : ∀ {p} i v, P p → P (p.written i v)) (cold : ∀ role, P (PortState.cold role)) {s t : State}
    (h : step s = .next t) (hs : ∀ n, P (s.port n)) : ∀ n, P (t.port n) := by
  refine step_keeps (P := fun u => ∀ n, P (u.port n)) (fun _ _ hu => hu) (fun move hu n => ?_) h hs
  obtain ⟨-, hp⟩ | ⟨i, m, v, -, -, rfl⟩ | ⟨roles, rfl⟩ := move.port_changes
  · exact (hp n).keep change (hu n)
  · rw [State.port_writeItem]
    split
    · exact written i v (hu n)
    · exact hu n
  · rw [State.port_coldReset]
    exact cold _

theorem SettingsInRange.of_move {s t : State} (move : Move s t) (h : SettingsInRange s) : SettingsInRange t := by
  obtain ⟨hd, hp⟩ | ⟨i, m, v, hr, hl, rfl⟩ | ⟨roles, rfl⟩ := move.port_changes
  · exact settingsInRange_of_same hd (fun n => (hp n).cfg) h
  · exact settingsInRange_writeItem h i m v hr hl
  · exact settingsInRange_cold rfl fun n => by rw [State.port_coldReset]; rfl

/-- Settles O56: each port's cache, link side and events are kept by every change of a port; the settings change by a write of a
value in range and by cold reset alone. -/
theorem portsStayInBounds : Obligations.PortsStayInBounds := by
  intro s t h
  refine ⟨fun hs => ?_, step_keeps (fun _ _ hu => hu) (fun move hu => hu.of_move move) h, fun hs => ?_⟩
  · rw [cacheBounded_iff] at hs ⊢
    exact step_keeps_ports .of_change (fun i v hp => hp.written i v) (fun _ => .empty rfl) h hs
  · exact step_keeps_ports .of_change (fun i v hp => hp.written i v) .cold h hs

/-! ### At reset -/

theorem State.port_reset (n : Port) : State.reset.port n = PortState.cold false := by simp [State.port, State.reset]

theorem State.bank_reset (b : BankId) : State.reset.bank b = Bank.cold := by simp [State.bank, State.reset]

theorem State.group_reset (g : GroupId) : State.reset.group g = GroupRec.cold := by simp [State.group, State.reset]

theorem descriptorsAdmitted_reset : DescriptorsAdmitted State.reset := by
  refine ⟨rfl, fun slot v hv => ?_, fun op hop => ?_⟩
  · have zero : v = 0 := (Option.some.inj hv).symm
    rw [zero]
    exact ⟨_, decodeDesc_zero, fun _ _ _ _ => rfl⟩
  · rcases hop with hop | ⟨b, hop⟩
    · cases hop
    · rw [State.bank_reset, Bank.ops_cold] at hop
      cases hop

/-- Settles O57: every block at its cold value. -/
theorem invariantsHoldAtReset : Obligations.InvariantsHoldAtReset := by
  refine ⟨descriptorsAdmitted_reset, LoadTables.sound (.cleared ?free (fun g => ?_) rfl rfl fun n => ?_) fun _ => rfl,
    .of_banks ?guarantee (Nat.zero_le _) (fun b => ?_) fun r => ?claims, (cacheBounded_iff _).2 fun n => ?_,
    settingsInRange_cold rfl fun n => ?_, fun n => ?_⟩
  case free => simp only [State.reset]
  case guarantee => show DeviceSettings.cold.guarantee.toNat ≤ 8; decide
  case claims =>
    rw [State.claims_eq]
    simp only [State.bank_reset, Bank.claims_of_ops_nil Bank.ops_cold]
    omega
  · rw [State.group_reset]; exact ⟨rfl, rfl⟩
  · rw [State.port_reset]; rfl
  · rw [State.bank_reset]; exact .cold _ _
  · rw [State.port_reset]; exact .empty rfl
  · rw [State.port_reset]; rfl
  · rw [State.port_reset]; exact .cold _

end Sys2Proof.Machine
end

section
/-! The commands: the request rows by their frame, the completions by the operation in flight, and how a command can end
(log 3, log 9, log 10). -/

namespace Sys2Proof.Machine

/-! ### The request rows -/

/-- A request row is the sending of its frame. -/
theorem exec_of_frame {c : Instr} {n : Port} {f : List Byte} (h : frameOf c = some (n, f)) (s : State) :
    exec c s = sendRequest n f s := by
  cases c <;> cases h <;> rfl

/-- A well-formed request row's frame is one of 13.1. -/
theorem length_of_wf {c : Instr} {n : Port} {f : List Byte} (hf : frameOf c = some (n, f)) (hw : c.wf = true) :
    f.length ≤ 80 := by
  cases c <;> cases hf
  case resetPort | unknownOp => exact of_decide_eq_true (Bool.and_eq_true_iff.1 hw).2
  all_goals exact of_decide_eq_true hw

theorem sendRequest_of_long {f : List Byte} (h : 80 < f.length) (n : Port) (s : State) :
    sendRequest n f s = .refused .frameTooLong := if_neg (by omega)

theorem sendRequest_of_deaf {f : List Byte} (h : f.length ≤ 80) {n : Port} {s : State} (hl : s.listens n = false) :
    sendRequest n f s = .next s := by
  rw [sendRequest, if_pos h, hl]; rfl

theorem sendRequest_of_listening {f : List Byte} (h : f.length ≤ 80) {n : Port} {s : State} (hl : s.listens n = true) :
    sendRequest n f s = .next (s.goodFrame n f) := by
  rw [sendRequest, if_pos h, hl]; rfl

/-- A request row on a link that takes characters is the passage of its frame (log 1). -/
theorem exec_of_listening {c : Instr} {n : Port} {f : List Byte} (hf : frameOf c = some (n, f)) (h : f.length ≤ 80)
    {s : State} (hl : s.listens n = true) : exec c s = .next (s.goodFrame n f) := by
  rw [exec_of_frame hf, sendRequest_of_listening h hl]

/-! ### The completions -/

section Completions

variable {s : State} {b : BankId} {n : Port} {slot : Nat} {dropped : Bool}

theorem exec_readCompletion {prefer : Bool} (h : s.inFlight b = some ⟨.ce n, slot, .read prefer, dropped⟩) :
    exec (.readCompletion b) s = unlessUndefined s slot (s.readDone b n slot prefer dropped) := by
  simp only [exec, execReadCompletion, h]

theorem exec_stageCompletion {v : Value} {mask : Option Value}
    (h : s.inFlight b = some ⟨.ce n, slot, .stage v mask, dropped⟩) :
    exec (.stageCompletion b) s =
      unlessUndefined s slot (s.writeDone b n slot dropped (s.stageEffect n slot v mask)) := by
  simp only [exec, execStageCompletion, h]

theorem exec_postCompletion {v : Value} {mask : Option Value}
    (h : s.inFlight b = some ⟨.ce n, slot, .post v mask, dropped⟩) :
    exec (.postCompletion b) s =
      unlessUndefined s slot (s.writeDone b n slot dropped (s.postEffect n slot v mask)) := by
  simp only [exec, execPostCompletion, h]

theorem exec_descReadCompletion (h : s.inFlight b = some ⟨.ce n, slot, .descRead, dropped⟩) :
    exec (.descReadCompletion b) s = .next (s.descReadDone b n slot dropped) := by
  simp only [exec, execDescReadCompletion, h]

theorem exec_descWriteCompletion {d l u : Value} (h : s.inFlight b = some ⟨.ce n, slot, .descWrite d l u, dropped⟩) :
    exec (.descWriteCompletion b) s = .next (s.descWriteDone b n slot d l u dropped) := by
  simp only [exec, execDescWriteCompletion, h]

theorem exec_mapFillCompletion {l : Nat} {inserts : Bool} (h : s.inFlight b = some ⟨.ce n, slot, .mapFill l inserts, dropped⟩) :
    exec (.mapFillCompletion b) s = .next (s.mapFillDone b n slot l inserts dropped) := by
  simp only [exec, execMapFillCompletion, h]

theorem exec_mapReadCompletion (h : s.inFlight b = some ⟨.ce n, slot, .mapRead, dropped⟩) :
    exec (.mapReadCompletion b) s = .next (s.mapReadDone b n slot dropped) := by
  simp only [exec, execMapReadCompletion, h]

theorem exec_mapWriteCompletion {t : Port} {l : Nat} {e : Value}
    (h : s.inFlight b = some ⟨.ce n, slot, .mapWrite t l e, dropped⟩) :
    exec (.mapWriteCompletion b) s = .next (s.mapWriteDone b n slot t l e dropped) := by
  simp only [exec, execMapWriteCompletion, h]

theorem exec_transferCompletion (h : s.inFlight b = some ⟨.load, slot, .transfer, dropped⟩) :
    exec (.transferCompletion b) s = .next (s.transferDone b slot) := by
  simp only [exec, execTransferCompletion, h]

theorem exec_scrubCompletion (h : s.inFlight b = some ⟨.scrub, slot, .scrub, dropped⟩) :
    exec (.scrubCompletion b) s = .next (s.scrubDone b slot) := by
  simp only [exec, execScrubCompletion, h]

theorem exec_fillCompletion (hl : s.resetLow = false) (h : (s.bank b).phase = .init) :
    exec (.fillCompletion b) s = .next (s.fillDone b) := by
  simp only [exec, execFillCompletion, hl, h, Bool.false_eq_true, if_false]

end Completions

/-! ### A part stopped by RESET (R173) -/

theorem State.inFlight_of_low {s : State} (h : s.resetLow = true) (b : BankId) : s.inFlight b = none := by
  simp only [State.inFlight, h, if_true]

theorem State.listens_of_low {s : State} (h : s.resetLow = true) (n : Port) : s.listens n = false := by
  simp only [State.listens, h, Bool.not_true, Bool.false_and]

/-- Settles O5: no link takes characters, no operation is in flight and no timer runs. -/
theorem stoppedPartTakesNoCommand : Obligations.StoppedPartTakesNoCommand := by
  intro c s low wf disturb edge cold
  have deaf := State.listens_of_low low
  have none_there := State.inFlight_of_low low
  cases hf : frameOf c with
  | some nf =>
    rw [exec_of_frame hf]
    exact sendRequest_of_deaf (length_of_wf hf wf) (deaf _)
  | none =>
    cases c with
    | disturbance slot w => exact absurd rfl (disturb slot w)
    | resetLineLow => exact absurd rfl edge
    | coldReset roles => exact absurd rfl (cold roles)
    | startBit | characterArrival => simp [exec, execStartBit, execCharacterArrival, deaf]
    | gapExpiry | lineReturnHigh | lastByteLeaves => simp [exec, execGapExpiry, execLineReturnHigh, execLastByteLeaves, low]
    | loadEdge | cycleTimerExpiry => simp [exec, execLoadEdge, execCycleTimerExpiry, low]
    | holdTimerExpiry | scrubTimerExpiry => simp [exec, execHoldTimerExpiry, execScrubTimerExpiry, low]
    | readCompletion | stageCompletion | postCompletion =>
      simp [exec, execReadCompletion, execStageCompletion, execPostCompletion, none_there]
    | descReadCompletion | descWriteCompletion => simp [exec, execDescReadCompletion, execDescWriteCompletion, none_there]
    | mapFillCompletion | mapReadCompletion | mapWriteCompletion =>
      simp [exec, execMapFillCompletion, execMapReadCompletion, execMapWriteCompletion, none_there]
    | transferCompletion | scrubCompletion => simp [exec, execTransferCompletion, execScrubCompletion, none_there]
    | fillCompletion => simp [exec, execFillCompletion, low]
    | _ => cases hf

/-! ### How a command can end -/

/-- A command answers a next state, or its slot's descriptor has a code that the layout does not define, or it is a request that
no frame holds. -/
theorem exec_cases (c : Instr) (s : State) :
    (∃ t, exec c s = .next t) ∨ (∃ slot t, exec c s = unlessUndefined s slot t) ∨
      ∃ n f, frameOf c = some (n, f) ∧ 80 < f.length ∧ exec c s = .refused .frameTooLong := by
  cases hf : frameOf c with
  | some nf =>
    obtain ⟨n, f⟩ := nf
    rw [exec_of_frame hf]
    by_cases hl : f.length ≤ 80
    · refine .inl ?_
      cases hn : s.listens n
      · exact ⟨_, sendRequest_of_deaf hl hn⟩
      · exact ⟨_, sendRequest_of_listening hl hn⟩
    · exact .inr (.inr ⟨n, f, rfl, by omega, sendRequest_of_long (by omega) n s⟩)
  | none =>
    cases c with
    | disturbance | resetLineLow | coldReset => exact .inl ⟨_, rfl⟩
    | startBit => simp only [exec, execStartBit]; split <;> exact .inl ⟨_, rfl⟩
    | characterArrival =>
      simp only [exec, execCharacterArrival]
      split
      · split <;> exact .inl ⟨_, rfl⟩
      · exact .inl ⟨_, rfl⟩
    | gapExpiry => simp only [exec, execGapExpiry]; split <;> exact .inl ⟨_, rfl⟩
    | lineReturnHigh => simp only [exec, execLineReturnHigh]; split <;> exact .inl ⟨_, rfl⟩
    | lastByteLeaves =>
      simp only [exec, execLastByteLeaves]
      split
      · exact .inl ⟨_, rfl⟩
      · split <;> exact .inl ⟨_, rfl⟩
    | loadEdge => simp only [exec, execLoadEdge]; split <;> exact .inl ⟨_, rfl⟩
    | cycleTimerExpiry => simp only [exec, execCycleTimerExpiry]; split <;> exact .inl ⟨_, rfl⟩
    | holdTimerExpiry =>
      simp only [exec, execHoldTimerExpiry]
      split
      · exact .inl ⟨_, rfl⟩
      · split
        · split <;> exact .inl ⟨_, rfl⟩
        · exact .inl ⟨_, rfl⟩
    | scrubTimerExpiry => simp only [exec, execScrubTimerExpiry]; split <;> exact .inl ⟨_, rfl⟩
    | readCompletion =>
      simp only [exec, execReadCompletion]
      split
      · exact .inr (.inl ⟨_, _, rfl⟩)
      · exact .inl ⟨_, rfl⟩
    | stageCompletion =>
      simp only [exec, execStageCompletion]
      split
      · exact .inr (.inl ⟨_, _, rfl⟩)
      · exact .inl ⟨_, rfl⟩
    | postCompletion =>
      simp only [exec, execPostCompletion]
      split
      · exact .inr (.inl ⟨_, _, rfl⟩)
      · exact .inl ⟨_, rfl⟩
    | descReadCompletion => simp only [exec, execDescReadCompletion]; split <;> exact .inl ⟨_, rfl⟩
    | descWriteCompletion => simp only [exec, execDescWriteCompletion]; split <;> exact .inl ⟨_, rfl⟩
    | mapFillCompletion => simp only [exec, execMapFillCompletion]; split <;> exact .inl ⟨_, rfl⟩
    | mapReadCompletion => simp only [exec, execMapReadCompletion]; split <;> exact .inl ⟨_, rfl⟩
    | mapWriteCompletion => simp only [exec, execMapWriteCompletion]; split <;> exact .inl ⟨_, rfl⟩
    | transferCompletion => simp only [exec, execTransferCompletion]; split <;> exact .inl ⟨_, rfl⟩
    | scrubCompletion => simp only [exec, execScrubCompletion]; split <;> exact .inl ⟨_, rfl⟩
    | fillCompletion =>
      simp only [exec, execFillCompletion]
      split
      · exact .inl ⟨_, rfl⟩
      · split <;> exact .inl ⟨_, rfl⟩
    | _ => cases hf

/-- The reading of a descriptor, by what its word yields (R5, R31). -/
theorem State.readDesc_of_none {s : State} {slot : Nat} (h : (s.word slot .desc).yield = none) :
    s.readDesc slot = .unreadable := by simp only [State.readDesc, h]

theorem State.readDesc_of_some {s : State} {slot : Nat} {v : Value} {d : Descriptor}
    (h : (s.word slot .desc).yield = some v) (hd : decodeDesc v = some d) : s.readDesc slot = .fields d := by
  simp only [State.readDesc, h, hd]

theorem State.readDesc_undefined_iff (s : State) (slot : Nat) :
    s.readDesc slot = .undefinedCode ↔ ∃ v, (s.word slot .desc).yield = some v ∧ decodeDesc v = none := by
  unfold State.readDesc
  cases hw : (s.word slot .desc).yield with
  | none => simp
  | some v => cases hd : decodeDesc v <;> simp [hd]

theorem unlessUndefined_of_defined {s : State} {slot : Nat} (h : s.readDesc slot ≠ .undefinedCode) (t : State) :
    unlessUndefined s slot t = .next t := by
  unfold unlessUndefined
  split
  · next e => exact absurd e h
  · rfl

theorem unlessUndefined_of_undefined {s : State} {slot : Nat} (h : s.readDesc slot = .undefinedCode) (t : State) :
    unlessUndefined s slot t = .fault (.undefinedDescriptor slot) := by simp only [unlessUndefined, h]

/-- Settles O58: an admitted store defines every descriptor, and a well-formed request has a frame of 13.1. -/
theorem commandsComplete : Obligations.CommandsComplete := by
  refine ⟨fun c s wf admitted => ?_, fun c s x h => ?_, fun c s x h => ?_⟩ <;>
    obtain ⟨t, e⟩ | ⟨slot, t, e⟩ | ⟨n, f, hf, hl, e⟩ := exec_cases c s
  · exact ⟨t, e⟩
  · refine ⟨t, e.trans (unlessUndefined_of_defined (fun hu => ?_) t)⟩
    obtain ⟨v, hv, hn⟩ := (s.readDesc_undefined_iff slot).1 hu
    obtain ⟨d, hd, -⟩ := admitted.store slot v hv
    rw [hn] at hd
    cases hd
  · have := length_of_wf hf wf
    omega
  · rw [e] at h; cases h
  · rw [e] at h
    by_cases hu : s.readDesc slot = .undefinedCode
    · rw [unlessUndefined_of_undefined hu] at h
      cases h
      obtain ⟨v, hv, hn⟩ := (s.readDesc_undefined_iff slot).1 hu
      exact ⟨slot, v, rfl, hv, hn⟩
    · rw [unlessUndefined_of_defined hu] at h
      cases h
  · rw [e] at h; cases h
  · rw [e] at h; cases h
  · rw [e, unlessUndefined] at h
    split at h <;> cases h
  · rw [e] at h
    cases h
    exact ⟨rfl, n, f, hf, hl⟩

end Sys2Proof.Machine
end

section
/-! The resets, the pins and the timers (R66, R92, R93, R104, R109, R110, R173 to R175). -/

namespace Sys2Proof.Machine

/-! ### The edges of RESET (R173) -/

/-- Settles O3: a cold reset puts each block's cold value. -/
theorem coldResetPutsEveryBlockInItsColdState : Obligations.ColdResetPutsEveryBlockInItsColdState := by
  refine ⟨fun roles s => ⟨s.coldReset roles, rfl, rfl, rfl, s.bank_coldReset roles, rfl, ?free, fun g => ?group, rfl, rfl,
    rfl, rfl, rfl, rfl, rfl, rfl, rfl, rfl, rfl, rfl, rfl, fun n => ?port, rfl⟩, fun s => ?reset⟩
  case free => simp only [State.coldReset, allEntries]
  case group => simp [State.coldReset, State.group, GroupRec.cold]
  case port => rw [State.port_coldReset]; rfl
  case reset =>
    have ports : coldPorts 0 = Vector.replicate 4 (PortState.cold false) := rfl
    simp only [exec, execColdReset, State.coldReset, State.reset, ports]

theorem PortState.sendingBuf_stopped (p : PortState) : p.stopped.sendingBuf = none := by
  obtain ⟨_, _, _, _, _, _, buf0, buf1⟩ := p
  cases buf0 <;> cases buf1 <;> rfl

/-- Settles O4: what the falling edge stops. -/
theorem resetLineLowStopsThePart : Obligations.ResetLineLowStopsThePart := by
  intro s
  refine ⟨s.stopPart, rfl, rfl, fun b => ?banks, rfl, rfl, rfl, fun n => ?ports, rfl, rfl, rfl, rfl, rfl⟩
  case banks =>
    rw [State.bank_stopPart]
    refine ⟨rfl, fun op => ?_, fun h => ?_, rfl⟩
    · unfold Bank.stopped
      dsimp only
      split
      · nofun
      · next h => exact h op
    · simp only [Bank.stopped, h]
  case ports =>
    refine ⟨?_, fun h => ?_, ?_, rfl, rfl⟩ <;> rw [State.port_stopPart]
    · rfl
    · nofun
    · exact PortState.sendingBuf_stopped _

/-! ### The last byte of a response, and the resets it brings (R132, R154) -/

/-- CEn stays as it is while it is not IDLE, has no frame waiting or no FREE buffer (R139). -/
theorem State.serve_of_stay {s : State} {n : Port}
    (h : (s.port n).ce ≠ .idle ∨ (s.port n).queue = [] ∨ (s.port n).freeBuf = none) : s.serve n = s := by
  unfold State.serve
  cases hq : (s.port n).queue.length with
  | zero => rfl
  | succ k =>
    unfold State.serveFuel
    split
    · next idle queue free =>
      rw [idle, queue, free] at h
      simp at h
    · rfl

theorem exec_lastByteLeaves {s : State} {n : Port} {k : BufId} (hl : s.resetLow = false)
    (hk : (s.port n).sendingBuf = some k) :
    exec (.lastByteLeaves n) s = .next (((s.bufferSent n k).resetAfter n k (s.port n).ce).serve n) := by
  simp only [exec, execLastByteLeaves, hl, hk, Bool.false_eq_true, if_false]

theorem State.resetAfter_own (s : State) (n : Port) (k : BufId) (scope : ResetScope) :
    s.resetAfter n k (.resetWait k scope) = s.takeReset n scope := if_pos rfl

theorem State.resetAfter_none (s : State) (n : Port) {k : BufId} {e : Engine} (h : ∀ scope, e ≠ .resetWait k scope) :
    s.resetAfter n k e = s := by
  unfold State.resetAfter
  split
  · next scope =>
    refine if_neg fun same => ?_
    subst same
    exact h scope rfl
  · rfl

/-- The buffers of port n alone change when a response has left. -/
theorem State.bufferSent_buffers (s : State) (n : Port) (k : BufId) :
    ∃ x y, s.bufferSent n k = s.setPort n { s.port n with buf0 := x, buf1 := y } := by
  obtain ⟨a, b, freed⟩ := (s.port n).setBuf_buffers k .free
  obtain ⟨x, y, started⟩ := PortState.startTransmitter_buffers { s.port n with buf0 := a, buf1 := b }
  refine ⟨x, y, ?_⟩
  simp only [State.bufferSent, State.updPort]
  rw [freed, started]

theorem PortState.portReset_eq (p : PortState) :
    p.portReset = { p with
      rx := if p.rx = .taking then .waitHigh else p.rx, asm := .hunt, gapTimer := none, queue := [], buf0 := .free
      buf1 := .free, linkErrors := 0, ce := .idle, cache := [], loaded := 0, sticky := EventKind.start.bit } := by
  rw [PortState.portReset, PortState.toHunt_eq]

theorem State.port_portReset_self (s : State) (m : Port) : (s.portReset m).port m = (s.port m).portReset :=
  State.port_updPort_self _ _ _

theorem State.port_portReset_of_ne (s : State) {m j : Port} (h : j ≠ m) : (s.portReset m).port j = s.port j :=
  State.port_updPort_of_ne _ _ _ _ h.symm

/-- The ports after a warm reset; the buffers a port had before do not matter. -/
theorem State.port_warmReset_of_buffers (s : State) {n : Port} {x y : Buffer} (m : Port) :
    ((s.setPort n { s.port n with buf0 := x, buf1 := y }).warmReset).port m =
      { s.port m with
        rx := if (s.port m).rx = .taking then .waitHigh else (s.port m).rx
        asm := .hunt, gapTimer := none, queue := [], buf0 := .free, buf1 := .free, linkErrors := 0, ce := .idle,
        cache := [], loaded := 0
        sticky := if s.engine = none then EventKind.start.bit else EventKind.start.bit ||| EventKind.torn.bit } := by
  have reset : ((s.setPort n { s.port n with buf0 := x, buf1 := y }).port m).portReset = (s.port m).portReset := by
    by_cases e : n = m
    · subst e; rw [State.port_setPort_self]; rfl
    · rw [State.port_setPort_of_ne _ _ _ _ e]
  rw [State.port_warmReset, reset, PortState.portReset_eq]
  show (if s.engine.isSome then _ else _) = _
  cases s.engine <;> rfl

/-- Settles O6: the last byte of the response brings the warm reset, after which no frame waits to be taken. -/
theorem warmResetEffect : Obligations.WarmResetEffect := by
  intro s n k hl hk hce
  obtain ⟨x, y, sent⟩ := s.bufferSent_buffers n k
  have ports := s.port_warmReset_of_buffers (n := n) (x := x) (y := y)
  have done : exec (.lastByteLeaves n) s = .next (s.setPort n { s.port n with buf0 := x, buf1 := y }).warmReset := by
    rw [exec_lastByteLeaves hl hk, hce, sent]
    rw [State.resetAfter_own]
    refine congrArg _ (State.serve_of_stay ?_)
    exact .inr (.inl (congrArg PortState.queue (ports n)))
  have core := State.warmReset_frame (s.setPort n { s.port n with buf0 := x, buf1 := y })
  refine ⟨_, done, ?_, ?_, ?_, ?_, ?_, ?_, ?_, fun b => ?_, ?_, ?free, ?_, ?_, ?_, ?_, ?_, fun g => ?_, ?_, ?_, ?_, ?_, ports⟩
  case free => rw [core]; simp only [State.warmCore, allEntries]
  · rw [core]; rfl
  · rw [core]; rfl
  · rw [core]; rfl
  · rw [core]; rfl
  · rw [core]; rfl
  · rw [core]; exact hl
  · rw [core]; rfl
  · rw [State.bank_warmReset]; rfl
  · rw [core]; rfl
  · rw [core]; rfl
  · rw [core]; rfl
  · rw [core]; rfl
  · rw [core]; rfl
  · rw [core]; rfl
  · rw [core]; exact State.getElem_mapAll _ _ _ _
  · rw [core]; exact s.freshCycleTimer_eq
  · rw [core]; rfl
  · rw [core]; rfl
  · rw [core]; rfl

/-- Settles O7: the reset comes with the last byte, and touches the port, its requests at the banks and those held back. -/
theorem portResetEffect : Obligations.PortResetEffect := by
  refine ⟨fun s n m k hl hk hce => ?_, fun s m => ⟨?_, fun j => s.port_portReset_of_ne, fun b => ?_, rfl⟩⟩
  · rw [exec_lastByteLeaves hl hk, hce]
    rw [State.resetAfter_own]
    rfl
  · rw [State.port_portReset_self, PortState.portReset_eq]
  · rw [State.bank_portReset]
    refine ⟨rfl, rfl, rfl, rfl, fun op h => ?_, fun h => ?_⟩
    · simp only [Bank.portReset, h]
      split <;> rfl
    · unfold Bank.portReset
      dsimp only
      split
      · next op e => exact absurd e (h op)
      · rfl

/-! ### Cycle events (R92, R93) -/

theorem edgeCounts_iff (src : CycleSource) (e : Edge) :
    edgeCounts src e = true ↔ (src = .lineRise ∧ e = .rising) ∨ (src = .lineFall ∧ e = .falling) := by
  cases src <;> cases e <;> decide

/-- Settles O9: the edge in the selected direction, and the expiry of a running timer. -/
theorem cycleEventSources : Obligations.CycleEventSources := by
  intro s hl
  refine ⟨fun e => ?_, fun left h => ?_, fun h => ?_⟩
  · simp only [exec, execLoadEdge, hl, Bool.not_false, Bool.true_and, edgeCounts_iff]
    split <;> rfl
  · simp [exec, execCycleTimerExpiry, hl, h]
  · simp [exec, execCycleTimerExpiry, h]

/-! ### The scrub timer (R110) -/

/-- The slot choice finds the first slot from the position on whose segment is not masked. -/
theorem firstUnmasked_eq_some {mask : Half} {pos slot : Nat} (from_pos : pos ≤ slot) (within : slot ≤ 4095)
    (free : mask.getLsbD (slot / 256) = false) (before : ∀ j, pos ≤ j → j < slot → mask.getLsbD (j / 256) = true) :
    firstUnmasked mask pos = some slot := by
  unfold firstUnmasked
  split
  · next masked =>
    have later : pos / 256 < slot / 256 := by
      have le := Nat.div_le_div_right (c := 256) from_pos
      have ne : pos / 256 ≠ slot / 256 := fun e => by rw [e, free] at masked; cases masked
      omega
    have at_start : slot = 256 * (slot / 256) := by
      by_contra not_start
      have := before (slot - 1) (by omega) (by omega)
      rw [show (slot - 1) / 256 = slot / 256 by omega, free] at this
      cases this
    have found : (List.range 16).find? (fun k => decide (pos / 256 < k) && !mask.getLsbD k) = some (slot / 256) := by
      refine List.find?_range_eq_some.2 ⟨by simp [later, free], List.mem_range.2 (by omega), fun j hj => ?_⟩
      by_cases hp : pos / 256 < j
      · have := before (256 * j) (by omega) (by omega)
        rw [Nat.mul_div_cancel_left _ (by omega)] at this
        simp [this]
      · simp [hp]
    rw [found, Option.map_some, ← at_start]
  · next unmasked =>
    refine congrArg some (Nat.le_antisymm from_pos (Nat.le_of_not_lt fun lt => ?_))
    exact unmasked (before pos (Nat.le_refl _) lt)

theorem firstUnmasked_eq_none {mask : Half} {pos : Nat} (within : pos ≤ 4095)
    (all : ∀ j, pos ≤ j → j ≤ 4095 → mask.getLsbD (j / 256) = true) : firstUnmasked mask pos = none := by
  rw [firstUnmasked, if_pos (all pos (Nat.le_refl _) within), Option.map_eq_none_iff, List.find?_eq_none]
  intro k hk
  have hk := List.mem_range.1 hk
  by_cases hp : pos / 256 < k
  · have := all (256 * k) (by omega) (by omega)
    rw [Nat.mul_div_cancel_left _ (by omega)] at this
    simp [this]
  · simp [hp]

/-- Settles O11: the choice by the first slot that is not masked, at the position or, after a pass, from slot 0. -/
theorem scrubSlotChoice : Obligations.ScrubSlotChoice := by
  intro s left hl ht hp s1 scrub masked
  have run : exec .scrubTimerExpiry s = .next s1.slotChoice := by
    have expires : (!s.resetLow && s.scrubTimer.isSome) = true := by rw [hl, ht]; rfl
    exact if_pos expires
  have same_out : s1.scrubOutstanding = s.scrubOutstanding := rfl
  have some_free {slot : Nat} (hs : slot ≤ 4095) (free : masked slot = false) : s1.dev.scrubMask ≠ 0xFFFF := by
    intro e
    have : (0xFFFF : Half).getLsbD (slot / 256) = true := by
      have all_set : ∀ k : Fin 16, (0xFFFF : Half).getLsbD k.val = true := by decide
      exact all_set ⟨slot / 256, by omega⟩
    rw [← e] at this
    exact absurd (free.symm.trans this) (by decide)
  refine ⟨fun h => ?_, fun idle => ⟨fun slot from_pos hs free before => ?_, fun all slot hs free before => ?_⟩⟩ <;> rw [run]
  · unfold State.slotChoice
    rw [same_out]
    rcases h with h | h
    · rw [if_pos h]
    · rw [if_pos (show s1.dev.scrubMask = 0xFFFF from h), ite_self]
  · have found : firstUnmasked s1.dev.scrubMask s1.patrol = some slot := firstUnmasked_eq_some from_pos hs free before
    unfold State.slotChoice
    rw [same_out, idle, if_neg Bool.false_ne_true, if_neg (some_free hs free), found]
    rfl
  · have passed : firstUnmasked s1.dev.scrubMask s1.patrol = none := firstUnmasked_eq_none hp all
    have found : firstUnmasked s1.dev.scrubMask 0 = some slot :=
      firstUnmasked_eq_some (Nat.zero_le _) hs free fun j _ => before j
    unfold State.slotChoice
    rw [same_out, idle, if_neg Bool.false_ne_true, if_neg (some_free hs free), passed]
    dsimp only
    rw [found]
    rfl

/-! ### The hold timers (R104) -/

/-- Settles O12: WAIT keeps the hold with its timer stopped, ABANDON settles the point EXPIRED. -/
theorem holdTimerExpires : Obligations.HoldTimerExpires := by
  intro s n h hl hce
  have run : exec (.holdTimerExpiry n) s = if h.timer.isSome then .next (s.holdExpires n h) else .next s := by
    simp only [exec, execHoldTimerExpiry, hl, hce, Bool.false_eq_true, if_false]
  refine ⟨fun left ht => ⟨fun waits => ?_, fun abandons => ?_⟩, fun ht => ?_⟩ <;> rw [run, ht]
  · simp only [Option.isSome_some, if_true, State.holdExpires, waits]
  · simp only [Option.isSome_some, if_true, State.holdExpires, abandons, Bool.false_eq_true, if_false]
    rfl
  · rfl

end Sys2Proof.Machine
end

section
/-! Taking requests (R139): what a request carried out leaves of queues, settings and groups, and the taking of one frame after
another. -/

namespace Sys2Proof.Machine

/-- An operation that writes neither a descriptor nor a map entry. -/
def BankOp.harmless (op : BankOp) : Prop :=
  (∀ d l h, op.act ≠ .descWrite d l h) ∧ ∀ m l e, op.act ≠ .mapWrite m l e

/-- A change that leaves the queues, the settings, and the groups' modes and arm sets, and brings no operation that writes a
descriptor or a map entry. -/
structure Mild (s t : State) : Prop where
  queue : ∀ m, (t.port m).queue = (s.port m).queue
  cfg : ∀ m, (t.port m).cfg = (s.port m).cfg
  dev : t.dev = s.dev
  modes : ∀ g, (t.group g).mode = (s.group g).mode ∧ (t.group g).armSet = (s.group g).armSet
  ops : ∀ b, ∀ op ∈ (t.bank b).ops, op ∈ (s.bank b).ops ∨ op.harmless
  held : ∀ op ∈ t.heldBack, op ∈ s.heldBack ∨ op.harmless

namespace Mild

theorem of_same {s t : State} (ports : t.ports = s.ports) (dev : t.dev = s.dev) (groups : t.groups = s.groups)
    (banks : t.banks = s.banks) (held : t.heldBack = s.heldBack) : Mild s t := by
  have port (m : Port) : t.port m = s.port m := State.ports_eq_iff.1 ports m
  have group (g : GroupId) : t.group g = s.group g := by simp only [State.group, groups]
  have bank (b : BankId) : t.bank b = s.bank b := by simp only [State.bank, banks]
  exact ⟨fun m => by rw [port], fun m => by rw [port], dev, fun g => by rw [group]; exact ⟨rfl, rfl⟩,
    fun b op h => .inl (bank b ▸ h), fun op h => .inl (held ▸ h)⟩

theorem refl (s : State) : Mild s s := of_same rfl rfl rfl rfl rfl

theorem trans {s t u : State} (h : Mild s t) (h' : Mild t u) : Mild s u :=
  ⟨fun m => (h'.queue m).trans (h.queue m), fun m => (h'.cfg m).trans (h.cfg m), h'.dev.trans h.dev,
    fun g => ⟨(h'.modes g).1.trans (h.modes g).1, (h'.modes g).2.trans (h.modes g).2⟩,
    fun b op ho => (h'.ops b op ho).elim (h.ops b op) .inr, fun op ho => (h'.held op ho).elim (h.held op) .inr⟩

/-- The ports changed, but not their queues and settings. -/
theorem of_ports {s t : State} (queue : ∀ m, (t.port m).queue = (s.port m).queue)
    (cfg : ∀ m, (t.port m).cfg = (s.port m).cfg) (rest : t = { s with ports := t.ports }) : Mild s t := by
  have same : Mild { s with ports := t.ports } t := by rw [rest]; exact refl _
  exact ⟨queue, cfg, same.dev, same.modes, same.ops, same.held⟩

theorem updPort (s : State) (n : Port) {f : PortState → PortState} (queue : (f (s.port n)).queue = (s.port n).queue)
    (cfg : (f (s.port n)).cfg = (s.port n).cfg) : Mild s (s.updPort n f) := by
  refine of_ports (fun m => ?_) (fun m => ?_) rfl <;> rw [State.port_updPort] <;> split
  · next e => exact e ▸ queue
  · rfl
  · next e => exact e ▸ cfg
  · rfl

theorem setEngine (s : State) (n : Port) (e : Engine) : Mild s (s.setEngine n e) := updPort s n rfl rfl

theorem updGroup (s : State) (g : GroupId) (f : GroupRec → GroupRec) (mode : (f (s.group g)).mode = (s.group g).mode)
    (armSet : (f (s.group g)).armSet = (s.group g).armSet) : Mild s (s.updGroup g f) := by
  have same := refl s
  refine ⟨same.queue, same.cfg, rfl, fun h => ?_, same.ops, same.held⟩
  rw [State.group_updGroup]
  split
  · next e => exact e ▸ ⟨mode, armSet⟩
  · exact ⟨rfl, rfl⟩

/-- A group's state and list, with the pool and the load tables around them. -/
theorem regroup (s : State) (g : GroupId) (st : GroupState) (l : List StageEntry) (free : List Nat) (queue : List GroupId)
    (e : Option GroupId) (run : LoadRun) :
    Mild s ({ s with freeList := free, loadQueue := queue, engine := e, load := run }.setGroup g
      { s.group g with state := st, list := l }) :=
  (of_same (s := s) (t := { s with freeList := free, loadQueue := queue, engine := e, load := run }) rfl rfl rfl rfl rfl).trans
    (updGroup _ g (fun r => { r with state := st, list := l }) rfl rfl)

theorem place (s : State) {op : BankOp} (h : op.harmless) : Mild s (s.place op) := by
  have same := refl s
  refine ⟨same.queue, same.cfg, rfl, same.modes, fun b x hx => ?_, fun x hx => ?_⟩
  · rw [State.bank_place] at hx
    split at hx
    · rcases List.mem_cons.1 ((Bank.ops_arrive op _).mem_iff.1 hx) with rfl | hx
      · exact .inr h
      · exact .inl hx
    · exact .inl hx
  · cases ho : s.outstanding op.who
    · rw [State.place_of_free _ _ ho] at hx; exact .inl hx
    · rw [State.place_of_outstanding _ _ ho] at hx
      rcases List.mem_append.1 hx with hx | hx
      · exact .inl (List.mem_filter.1 hx).1
      · rw [List.mem_singleton.1 hx]; exact .inr h

end Mild

/-! ### Responses and runs -/

/-- Completing a response changes port n's engine and buffers (R140). -/
theorem State.respond_buffers (s : State) (n : Port) (tag : Byte) (st : FrameStatus) (body : List Byte) :
    ∃ x y, s.respond n tag st body = s.setPort n { s.port n with ce := .idle, buf0 := x, buf1 := y } := by
  unfold State.respond
  split
  · exact ⟨_, _, rfl⟩
  · next k _ =>
    generalize ({ tag := tag, status := frameCode st, summary := s.summaryByte n, body := body } : Response) = r
    obtain ⟨a, b, filled⟩ := (s.port n).setBuf_buffers k (.filled r)
    obtain ⟨x, y, started⟩ := PortState.startTransmitter_buffers { s.port n with buf0 := a, buf1 := b, ce := .idle }
    refine ⟨x, y, ?_⟩
    simp only [State.updPort]
    rw [filled, started]

theorem Mild.respond (s : State) (n : Port) (tag : Byte) (st : FrameStatus) (body : List Byte) :
    Mild s (s.respond n tag st body) := by
  obtain ⟨x, y, e⟩ := s.respond_buffers n tag st body
  rw [e]
  exact .updPort s n (f := fun _ => { s.port n with ce := .idle, buf0 := x, buf1 := y }) rfl rfl

theorem PortState.touch_frame (p : PortState) (l : Nat) : p.touch l = { p with cache := (p.touch l).cache } := by
  unfold PortState.touch
  split <;> rfl

theorem harmless_accessOp (n : Port) (a : PointAccess) (slot : Nat) : (accessOp n a slot).harmless := by
  cases a <;> exact ⟨nofun, nofun⟩

theorem Mild.advance (n : Port) (todo : List PointAccess) (r : PointRun) (s : State) :
    Mild s (State.advance n todo r s) := by
  have touched (s : State) (l : Nat) : Mild s (s.updPort n (PortState.touch l)) :=
    .updPort s n (by rw [PortState.touch_frame]) (by rw [PortState.touch_frame])
  induction todo generalizing r s with
  | nil => exact .respond _ _ _ _ _
  | cons a rest ih =>
    unfold State.advance
    split
    · exact ih _ _
    · split
      · exact (Mild.setEngine s n _).trans (.place _ ⟨nofun, nofun⟩)
      · split
        · exact (touched s _).trans ((Mild.setEngine _ n _).trans (.place _ (harmless_accessOp _ _ _)))
        · exact (touched s _).trans (ih _ _)

/-! ### Requests -/

theorem Mild.startAndPlace (s : State) : Mild s s.startAndPlace := by
  have started (g : GroupId) (rest : List GroupId) : Mild s (s.loadStarted g rest) :=
    .regroup s g .loading (s.group g).list s.freeList rest (some g) _
  obtain e | ⟨g, rest, e | ⟨x, e⟩⟩ := s.startAndPlace_cases <;> rw [e]
  · exact .refl s
  · exact started g rest
  · exact (started g rest).trans (.place _ ⟨nofun, nofun⟩)

theorem Mild.enqueueGroup (s : State) (g : GroupId) : Mild s (s.enqueueGroup g) :=
  .regroup s g .queued (s.group g).list s.freeList _ s.engine s.load

theorem Mild.arm (s : State) (n : Port) (g : GroupId) (now : Bool) : Mild s (s.arm n g now).2 := by
  have queued : Mild s (s.armNow g) := (Mild.enqueueGroup s g).trans (.startAndPlace _)
  unfold State.arm
  split
  · exact .refl s
  · split
    · exact .refl s
    · exact .refl s
    · exact .refl s
    · split
      · exact queued
      · split
        · exact .regroup s g .armed (s.group g).list s.freeList s.loadQueue s.engine s.load
        · exact .refl s
    · split
      · exact queued
      · exact .refl s

theorem Mild.discardRequest (s : State) (n : Port) (g : GroupId) : Mild s (s.discardRequest n g).2 := by
  have discarded : Mild s (s.discard g) := .regroup s g .empty [] _ _ s.engine s.load
  unfold State.discardRequest
  split
  · exact .refl s
  · split
    · exact .refl s
    · exact .refl s
    all_goals exact discarded

theorem Mild.cycleEvent (s : State) : Mild s s.cycleEvent := by
  refine Mild.trans (t := s.countCycle.queueDue) ?_ (.startAndPlace _)
  rw [State.countCycle_queueDue_frame]
  have same := Mild.refl s
  have port (m : Port) : (s.countCycle.port m).queue = (s.port m).queue ∧ (s.countCycle.port m).cfg = (s.port m).cfg := by
    rw [State.port_countCycle]
    split <;> exact ⟨rfl, rfl⟩
  refine ⟨fun m => (port m).1, fun m => (port m).2, rfl, fun g => ?_, same.ops, same.held⟩
  show ((s.countCycle.queueDue.group g).mode = _) ∧ (s.countCycle.queueDue.group g).armSet = _
  rw [State.group_countCycle_queueDue]
  split <;> exact ⟨rfl, rfl⟩

theorem Mild.askSingle (s : State) (n : Port) (tag : Byte) (slot : Nat) {act : Act}
    (h : BankOp.harmless { who := .ce n, slot := slot, act := act, dropped := false }) :
    Mild s (s.askSingle n tag slot act) := (Mild.setEngine s n _).trans (.place _ h)

theorem Mild.awaitReset (s : State) (n : Port) (tag : Byte) (scope : ResetScope) : Mild s (s.awaitReset n tag scope) := by
  unfold State.awaitReset
  split
  · exact .refl s
  · exact (Mild.respond _ _ _ _ _).trans (.setEngine _ _ _)

/-- The requests that write a group, a descriptor, a map entry or a setting. -/
def Request.configures : Request → Bool
  | .groupWrite _ _ _ => true
  | .descWrite _ _ _ _ _ => true
  | .mapWrite _ _ _ => true
  | .settingWrite _ _ _ _ => true
  | _ => false

/-- Every other request is mild. -/
theorem Mild.runRequest (s : State) (n : Port) (tag : Byte) {r : Request} (h : r.configures = false) :
    Mild s (s.runRequest n tag r) := by
  have logged (l : ErrorLog) : Mild s { s with log := l } := .of_same rfl rfl rfl rfl rfl
  cases r with
  | probe | status | groupStatus | settingRead => exact .respond _ _ _ _ _
  | clear | loaded => exact (Mild.updPort s n rfl rfl).trans (.respond _ _ _ _ _)
  | flush t => exact (Mild.updPort s t rfl rfl).trans (.respond _ _ _ _ _)
  | run => exact .advance _ _ _ _
  | arm => exact (Mild.arm _ _ _ _).trans (.respond _ _ _ _ _)
  | discard => exact (Mild.discardRequest _ _ _).trans (.respond _ _ _ _ _)
  | cycle => exact (Mild.cycleEvent s).trans (.respond _ _ _ _ _)
  | descRead | mapRead => exact .askSingle _ _ _ _ ⟨nofun, nofun⟩
  | logRead | logClear => exact (logged _).trans (.respond _ _ _ _ _)
  | reset scope ok =>
    simp only [State.runRequest]
    split
    · exact .awaitReset _ _ _ _
    · exact .respond _ _ _ _ _
  | groupWrite | descWrite | mapWrite | settingWrite => cases h

/-- A request leaves each queue as it is, or a port reset empties it. -/
theorem queue_runRequest (s : State) (n : Port) (tag : Byte) (r : Request) (m : Port) :
    ((s.runRequest n tag r).port m).queue = (s.port m).queue ∨ ((s.runRequest n tag r).port m).queue = [] := by
  have asked (slot : Nat) (act : Act) : ((s.askSingle n tag slot act).port m).queue = (s.port m).queue :=
    (Mild.setEngine s n _).queue m
  have answered (u : State) (st : FrameStatus) (body : List Byte) :
      ((u.respond n tag st body).port m).queue = (u.port m).queue := (Mild.respond u n tag st body).queue m
  cases r with
  | groupWrite g mode arms =>
    refine .inl ((answered _ _ _).trans ?_)
    unfold State.groupWrite
    split <;> rfl
  | descWrite =>
    simp only [State.runRequest]
    split
    · exact .inl (answered _ _ _)
    · exact .inl (asked _ _)
  | mapWrite =>
    simp only [State.runRequest]
    split
    · exact .inl (answered _ _ _)
    · exact .inl (asked _ _)
  | settingWrite i k v ok =>
    simp only [State.runRequest]
    split
    · rw [answered, State.port_writeItem]
      split
      · cases i with
        | linkEnable =>
          simp only [PortState.written]
          split
          · exact .inl rfl
          · exact .inr rfl
        | _ => exact .inl rfl
      · exact .inl rfl
    · exact .inl (answered _ _ _)
  | _ => exact .inl ((Mild.runRequest s n tag rfl).queue m)

theorem queue_runFrame (s : State) (n : Port) (f : List Byte) (m : Port) :
    ((s.runFrame n f).port m).queue = (s.port m).queue ∨ ((s.runFrame n f).port m).queue = [] := by
  unfold State.runFrame
  split
  · split
    · exact .inl ((Mild.respond _ _ _ _ _).queue m)
    · exact queue_runRequest _ _ _ _ _
  · exact .inl rfl

/-! ### One frame after another (R139) -/

theorem queue_takeHead (s : State) (n : Port) (k : BufId) (rest : List (List Byte)) :
    ((s.takeHead n k rest).port n).queue = rest := by
  rw [State.takeHead, State.port_updPort_self]

theorem serveFuel_of_empty (k : Nat) {s : State} {n : Port} (h : (s.port n).queue = []) : State.serveFuel n k s = s := by
  cases k with
  | zero => rfl
  | succ k =>
    unfold State.serveFuel
    split
    · next queue _ => rw [h] at queue; cases queue
    · rfl

/-- With fuel for every frame that waits CEn takes what it can. -/
theorem serveFuel_eq_serve (n : Port) (k : Nat) (s : State) (h : (s.port n).queue.length ≤ k) :
    State.serveFuel n k s = s.serve n := by
  have agree (k j : Nat) (s : State) (hk : (s.port n).queue.length ≤ k) (hj : (s.port n).queue.length ≤ j) :
      State.serveFuel n k s = State.serveFuel n j s := by
    induction k generalizing j s with
    | zero =>
      have empty := List.length_eq_zero_iff.1 (Nat.le_zero.1 hk)
      rw [serveFuel_of_empty _ empty, serveFuel_of_empty _ empty]
    | succ k ih =>
      cases j with
      | zero =>
        have empty := List.length_eq_zero_iff.1 (Nat.le_zero.1 hj)
        rw [serveFuel_of_empty _ empty, serveFuel_of_empty _ empty]
      | succ j =>
        unfold State.serveFuel
        split
        · next f rest b _ hq _ =>
          rw [hq, List.length_cons] at hk hj
          have shorter : (((s.takeHead n b rest).runFrame n f).port n).queue.length ≤ rest.length := by
            obtain e | e := queue_runFrame (s.takeHead n b rest) n f n <;> rw [e]
            · rw [queue_takeHead]
            · exact Nat.zero_le _
          exact ih j _ (by omega) (by omega)
        · rfl
  exact agree k _ s h (Nat.le_refl _)

/-- CEn takes the head of its queue, and goes on. -/
theorem State.serve_of_take {s : State} {n : Port} {k : BufId} {f : List Byte} {rest : List (List Byte)}
    (idle : (s.port n).ce = .idle) (queue : (s.port n).queue = f :: rest) (free : (s.port n).freeBuf = some k) :
    s.serve n = ((s.takeHead n k rest).runFrame n f).serve n := by
  have fuel : (s.port n).queue.length = rest.length + 1 := by rw [queue, List.length_cons]
  unfold State.serve
  rw [fuel]
  simp only [State.serveFuel, idle, queue, free]
  refine serveFuel_eq_serve n _ _ ?_
  obtain e | e := queue_runFrame (s.takeHead n k rest) n f n <;> rw [e]
  · rw [queue_takeHead]
  · exact Nat.zero_le _

end Sys2Proof.Machine
end

section
/-! The links: line events, characters, frames that pass, and the last byte of a response (R122 to R129, R132, R139). -/

namespace Sys2Proof.Machine

/-- Settles O13: each line event changes its port's receiver, or discards its frame. -/
theorem linkLineEvents : Obligations.LinkLineEvents := by
  intro s n
  refine ⟨fun hl hr => ?_, fun hl left hg => ?_, fun hl hr => ?_⟩
  · have detects : (s.listens n && (s.port n).rx == .looking) = true := by rw [hl, hr]; rfl
    exact if_pos detects
  · have expires : (!s.resetLow && (s.port n).gapTimer.isSome) = true := by rw [hl, hg]; rfl
    exact if_pos expires
  · have returns : (!s.resetLow && (s.port n).rx == .waitHigh) = true := by rw [hl, hr]; rfl
    exact if_pos returns

/-! ### Characters (R122, R123) -/

theorem odd_add_toNat (k : Nat) (b : Bool) : decide ((k + b.toNat) % 2 = 1) = (decide (k % 2 = 1) ^^ b) := by
  have : k % 2 = 0 ∨ k % 2 = 1 := by omega
  rcases this with e | e <;> cases b <;> simp [Nat.add_mod, e]

/-- The parity of a character is that of the number of its 1s. -/
theorem oddOnes_xor (d : Byte) (p : Bool) :
    (oddOnes d ^^ p) = decide (((List.range 8).countP (fun i => d.getLsbD i) + p.toNat) % 2 = 1) := by
  have count : (List.range 8).countP (fun i => d.getLsbD i) =
      0 + (d.getLsbD 0).toNat + (d.getLsbD 1).toNat + (d.getLsbD 2).toNat + (d.getLsbD 3).toNat + (d.getLsbD 4).toNat +
        (d.getLsbD 5).toNat + (d.getLsbD 6).toNat + (d.getLsbD 7).toNat := by
    simp only [show List.range 8 = [0, 1, 2, 3, 4, 5, 6, 7] from rfl, List.countP_cons, List.countP_nil, Bool.toNat,
      Bool.cond_eq_ite]
    omega
  rw [count]
  simp only [odd_add_toNat, oddOnes, Nat.zero_mod, Nat.zero_ne_one, decide_false, Bool.false_xor]

theorem exec_characterArrival {s : State} {n : Port} (hl : s.listens n = true) (hr : (s.port n).rx = .taking) (d : Byte)
    (p s1 s2 : Bool) :
    exec (.characterArrival n d p s1 s2) s =
      .next (if (parityPasses (s.port n).cfg.parity d p && stopPasses (s.port n).cfg.twoStops s1 s2) = true then
        (s.updPort n (fun q => { q with rx := receiverAfter (lastStop (s.port n).cfg.twoStops s1 s2) })).takeChar n d
      else
        (s.updPort n (fun q => { q with rx := receiverAfter (lastStop (s.port n).cfg.twoStops s1 s2) })).updPort n
          (fun q => q.failedChar (parityPasses (s.port n).cfg.parity d p) (stopPasses (s.port n).cfg.twoStops s1 s2))) := by
  have takes : (s.listens n && (s.port n).rx == .taking) = true := by rw [hl, hr]; rfl
  refine (if_pos takes).trans ?_
  split <;> rfl

theorem PortState.failedChar_eq (p : PortState) (parityOk stopOk : Bool) :
    p.failedChar parityOk stopOk =
      if p.asm = .hunt then p
      else { p with
        linkErrors := p.linkErrors ||| ((if parityOk then 0 else 0x01) ||| (if stopOk then 0 else 0x02))
        asm := .hunt, gapTimer := none } := by
  unfold PortState.failedChar
  split
  · next e => rw [if_pos e]
  · next e => rw [if_neg e]; rfl

/-- Settles O14: the two checks, and the flags by which of them failed. -/
theorem failedCharacterIsDropped : Obligations.FailedCharacterIsDropped := by
  refine ⟨fun d p => ⟨rfl, ?_, ?_⟩, fun a b => ⟨?_, ?_⟩, ?_⟩
  · have : parityPasses .even d p = !(oddOnes d ^^ p) := rfl
    rw [this, oddOnes_xor, Bool.not_eq_true', decide_eq_false_iff_not]
    omega
  · have : parityPasses .odd d p = (oddOnes d ^^ p) := rfl
    rw [this, oddOnes_xor, decide_eq_true_eq]
  · simp [stopPasses]
  · simp [stopPasses]
  · intro s n d p s1 s2 hl hr c parityOk stopOk rx failed
    have after : receiverAfter (lastStop c.twoStops s1 s2) = rx := rfl
    rw [exec_characterArrival hl hr, if_neg (by rw [failed]; exact Bool.false_ne_true), State.updPort_updPort, after]
    simp only [State.updPort, PortState.failedChar_eq]
    rfl

/-- A character whose stop bits are all high leaves the line high. -/
theorem receiverAfter_of_stopPasses {twoStops s1 s2 : Bool} (h : stopPasses twoStops s1 s2 = true) :
    receiverAfter (lastStop twoStops s1 s2) = .looking := by
  obtain ⟨first, second⟩ := Bool.and_eq_true_iff.1 h
  cases twoStops with
  | false => rw [first]; rfl
  | true => rw [show s2 = true from second]; rfl

theorem State.goodFrame_of_rx (s : State) (n : Port) (rx : Receiver) (f : List Byte) :
    (s.updPort n (fun p => { p with rx := rx })).goodFrame n f = s.goodFrame n f := by
  unfold State.goodFrame
  rw [State.updPort_updPort]

theorem exec_characterArrival_of_accepts {s : State} {n : Port} {d : Byte} {p s1 s2 : Bool} (hl : s.listens n = true)
    (hr : (s.port n).rx = .taking) (ha : (s.port n).accepts d p s1 s2) :
    exec (.characterArrival n d p s1 s2) s = .next ((s.updPort n (fun q => { q with rx := .looking })).takeChar n d) := by
  obtain ⟨parityOk, stopOk⟩ := ha
  rw [exec_characterArrival hl hr, if_pos (by rw [parityOk, stopOk]; rfl), receiverAfter_of_stopPasses stopOk]

/-! ### The assembler (R124, R125, R128) -/

/-- Settles O15: the character taken in each state of the assembler. -/
theorem assemblerTakesCharacter : Obligations.AssemblerTakesCharacter := by
  intro s n d p s1 s2 hl hr ha q gap
  rw [exec_characterArrival_of_accepts hl hr ha]
  have port : (s.updPort n (fun q => { q with rx := .looking })).port n = { q with rx := .looking } :=
    State.port_updPort_self _ _ _
  have update (f : PortState → PortState) :
      (s.updPort n (fun q => { q with rx := .looking })).updPort n f = s.setPort n (f { q with rx := .looking }) :=
    State.updPort_updPort _ _ _ _
  unfold State.takeChar
  rw [port]
  cases hasm : q.asm with
  | hunt =>
    simp only [update]
    by_cases e : d = sync
    · rw [if_pos e, if_pos (show d = 0x5B from e)]; rfl
    · rw [if_neg e, if_neg (show d ≠ 0x5B from e), ← hasm]; rfl
  | length =>
    simp only [update]
    split <;> rfl
  | body len left got =>
    simp only [update]
    split <;> rfl
  | check len got =>
    simp only [update, State.goodFrame_of_rx, Bool.and_eq_true, bne_iff_ne]
    split <;> rfl

/-! ### Frames that pass (R128, R129) -/

/-- Settles O17: the last character that passes is the passage of the frame. -/
theorem requestRowIsFramePassage : Obligations.RequestRowIsFramePassage := by
  intro c n f s d p s1 s2 len hf hlen hl hr hasm ha hcrc
  rw [exec_of_listening hf hlen hl, assemblerTakesCharacter s n d p s1 s2 hl hr ha]
  rw [hasm]
  refine congrArg _ (if_neg fun h => h.2 (hcrc h.1))

theorem PortState.enqueue_of_room {p : PortState} (h : p.queue.length ≤ 3) (f : List Byte) :
    p.enqueue f = { p with queue := p.queue ++ [f] } := if_pos h

theorem PortState.enqueue_of_full {p : PortState} (h : 4 ≤ p.queue.length) (f : List Byte) :
    p.enqueue f = { p with linkErrors := p.linkErrors ||| 0x20 } := if_neg (by omega)

/-- The passage of a frame: the assembler hunts, the frame is queued or dropped, and CEn takes what it can. -/
theorem State.goodFrame_eq (s : State) (n : Port) (f : List Byte) :
    s.goodFrame n f =
      (s.setPort n (PortState.enqueue f { s.port n with rx := .looking, asm := .hunt, gapTimer := none })).serve n := by
  rw [State.goodFrame, State.passFrame, State.updPort_updPort]
  rfl

theorem PortState.enqueue_frame (f : List Byte) (p : PortState) :
    (p.enqueue f).ce = p.ce ∧ (p.enqueue f).freeBuf = p.freeBuf := by
  unfold PortState.enqueue
  split <;> exact ⟨rfl, rfl⟩

/-- Settles O18: a busy engine leaves the frame in the queue, or it is dropped there. -/
theorem passedFrameIsQueuedOrDropped : Obligations.PassedFrameIsQueuedOrDropped := by
  intro c n f s hf hlen q
  refine ⟨fun deaf => ?_, fun hl busy => ?_⟩
  · rw [exec_of_frame hf, sendRequest_of_deaf hlen deaf]
  · have passed : exec c s =
        .next (s.setPort n (PortState.enqueue f { q with rx := .looking, asm := .hunt, gapTimer := none })) := by
      rw [exec_of_listening hf hlen hl, State.goodFrame_eq, State.serve_of_stay]
      rw [State.port_setPort_self]
      obtain ⟨ce, free⟩ := PortState.enqueue_frame f { q with rx := .looking, asm := .hunt, gapTimer := none }
      rw [ce, free]
      exact busy.imp_right .inr
    rw [passed]
    refine ⟨fun room => ?_, fun full => ?_⟩
    · rw [PortState.enqueue_of_room (p := { q with rx := .looking, asm := .hunt, gapTimer := none }) room]
    · rw [PortState.enqueue_of_full (p := { q with rx := .looking, asm := .hunt, gapTimer := none }) full]

/-! ### The last byte of a response (R132, R139) -/

/-- The transmitter takes the other buffer when it is FILLED and the link enabled. -/
theorem PortState.startTransmitter_after_sent (p : PortState) {k j : BufId} (hj : j ≠ k)
    (hs : ∀ r form, p.buf j ≠ .sending r form) :
    (p.setBuf k .free).startTransmitter = (p.setBuf k .free).setBuf j
      (match p.buf j with
        | .filled r => if p.cfg.linkOn then .sending r p.form else .filled r
        | x => x) := by
  obtain ⟨supervisor, ⟨viewSize, parity, twoStops, divisor, gapCount, crcOn, linkOn⟩, rx, asm, gap, queue, buf0, buf1⟩ := p
  cases k <;> cases j
  case zero.zero | one.one => exact absurd rfl hj
  case zero.one =>
    cases buf1 with
    | sending r form => exact absurd rfl (hs r form)
    | _ => cases linkOn <;> rfl
  case one.zero =>
    cases buf0 with
    | sending r form => exact absurd rfl (hs r form)
    | _ => cases linkOn <;> rfl

/-- Settles O19: the buffer freed, the other one started, and CEn taking one frame after another. -/
theorem lastByteFreesBuffer : Obligations.LastByteFreesBuffer := by
  refine ⟨fun s n k hl hk hce => ?_, fun s n k j hj hs => ?_, fun s n k f rest idle queue free => ?_, fun s n stay => ?_⟩
  · rw [exec_lastByteLeaves hl hk, State.resetAfter_none _ _ hce]
  · rw [State.bufferSent, State.updPort, PortState.startTransmitter_after_sent _ hj hs]
    rfl
  · rw [State.serve_of_take idle queue free]
    rfl
  · exact State.serve_of_stay stay

end Sys2Proof.Machine
end

section
/-! A member's requests (R143, R169): what the role check keeps from a port that is no supervisor. -/

namespace Sys2Proof.Machine

theorem PortChange.supervisor {p q : PortState} (h : PortChange p q) : q.supervisor = p.supervisor := by
  cases h with
  | move hm => cases hm <;> rfl
  | notify _ g b =>
    unfold PortState.notifyLoad
    split
    · dsimp only; split <;> rfl
    · rfl
  | endHold _ g =>
    unfold PortState.endHold
    split
    · split <;> rfl
    · rfl
  | _ => rfl

theorem PortState.supervisor_written (p : PortState) (i : Item) (v : BitVec 64) :
    (p.written i v).supervisor = p.supervisor := by
  cases i with
  | linkEnable => simp only [PortState.written]; split <;> rfl
  | _ => rfl

/-- No request changes a port's role. -/
theorem Quiets.supervisor {s t : State} (h : Quiets s t) (n : Port) : (t.port n).supervisor = (s.port n).supervisor := by
  refine h.keep (P := fun u => (u.port n).supervisor = (s.port n).supervisor) (fun quiet hu => ?_) rfl
  refine Eq.trans ?_ hu
  obtain ⟨-, changes⟩ | ⟨i, m, v, -, -, rfl⟩ := quiet.port_changes
  · exact (changes n).keep (P := fun p => p.supervisor = _) (fun change hp => change.supervisor.trans hp) rfl
  · rw [State.port_writeItem]
    split
    · exact PortState.supervisor_written _ _ _
    · rfl

/-- What a member's request on link n leaves: groups' modes and arm sets, every item but the port's own, and no operation that
writes a descriptor or a map entry. -/
structure MemberKeeps (n : Port) (s t : State) : Prop where
  modes : ∀ g, (t.group g).mode = (s.group g).mode ∧ (t.group g).armSet = (s.group g).armSet
  items : ∀ m i, m ≠ n ∨ i.kind ≠ .ownPort → t.itemBytes m i = s.itemBytes m i
  ops : ∀ b, ∀ op ∈ (t.bank b).ops, op ∈ (s.bank b).ops ∨ op.harmless
  held : ∀ op ∈ t.heldBack, op ∈ s.heldBack ∨ op.harmless

namespace MemberKeeps

variable {n : Port}

theorem trans {s t u : State} (h : MemberKeeps n s t) (h' : MemberKeeps n t u) : MemberKeeps n s u :=
  ⟨fun g => ⟨(h'.modes g).1.trans (h.modes g).1, (h'.modes g).2.trans (h.modes g).2⟩,
    fun m i hi => (h'.items m i hi).trans (h.items m i hi),
    fun b op ho => (h'.ops b op ho).elim (h.ops b op) .inr, fun op ho => (h'.held op ho).elim (h.held op) .inr⟩

theorem of_mild {s t : State} (h : Mild s t) : MemberKeeps n s t :=
  ⟨h.modes, fun m i _ => by rw [State.itemBytes_eq, State.itemBytes_eq, h.dev, h.cfg], h.ops, h.held⟩

theorem refl (s : State) : MemberKeeps n s s := of_mild (.refl s)

/-- One port's link side changed. -/
theorem setPort (s : State) {p : PortState} (cfg : p.cfg = (s.port n).cfg) : MemberKeeps n s (s.setPort n p) := by
  have same : MemberKeeps n s s := .refl s
  refine ⟨same.modes, fun m i _ => ?_, same.ops, same.held⟩
  rw [State.itemBytes_eq, State.itemBytes_eq]
  by_cases e : n = m
  · subst e; rw [State.port_setPort_self, cfg]; rfl
  · rw [State.port_setPort_of_ne _ _ _ _ e]; rfl

/-- An own-port item written by its own port (R171). -/
theorem writeItem (s : State) {i : Item} (hk : i.kind = .ownPort) {v : BitVec 64} (hr : i.inRange v = true)
    (hl : v.toNat < 2 ^ (8 * i.len)) : MemberKeeps n s (s.writeItem i n v) := by
  have same : MemberKeeps n s s := .refl s
  have only_ports : (s.writeItem i n v).banks = s.banks ∧ (s.writeItem i n v).heldBack = s.heldBack := by
    cases i with
    | watchSet | holdLimit | holdAction | level => exact ⟨rfl, rfl⟩
    | _ => cases hk
  refine ⟨?_, fun m j hj => ?_, ?_, ?_⟩
  · rw [State.writeItem_frame]; exact same.modes
  · rw [settingWriteReadsBack s i j n m v hr hl]
    refine if_neg fun ⟨e, at_n⟩ => ?_
    rw [e, hk] at hj
    simp only [ne_eq, not_true, or_false] at hj
    exact at_n.elim hj (by rw [hk]; nofun)
  · simp only [State.bank, only_ports.1]; exact same.ops
  · rw [only_ports.2]; exact same.held

end MemberKeeps

/-- A request that passes the checks has been decoded from its parameters and is allowed by the role (R141). -/
theorem checkRequest_ok {s : State} {n : Port} {op : Byte} {ps : List Byte} {r : Request}
    (h : s.checkRequest n op ps = .ok r) : r.wf = true ∧ roleAllows (s.port n).supervisor n r = true := by
  refine ⟨checkRequest_wf h, ?_⟩
  unfold State.checkRequest at h
  split at h
  · cases h
  · split at h
    · cases h
    · split at h
      · cases h
      · split at h
        · next allowed => cases h; exact allowed
        · cases h

theorem MemberKeeps.runRequest {s : State} {n : Port} (tag : Byte) {r : Request} (wf : r.wf = true)
    (allowed : roleAllows false n r = true) : MemberKeeps n s (s.runRequest n tag r) := by
  cases r with
  | groupWrite | descWrite | mapWrite => cases allowed
  | settingWrite i m v ok =>
    simp only [Request.wf, Bool.and_eq_true, decide_eq_true_eq] at wf
    obtain ⟨⟨⟨-, inRange⟩, fits⟩, -⟩ := wf
    have own : i.kind = .ownPort ∧ m = n := by
      unfold roleAllows at allowed
      cases hk : i.kind <;> simp_all
    obtain ⟨own, rfl⟩ := own
    simp only [State.runRequest]
    split
    · exact (MemberKeeps.writeItem s own inRange fits).trans (.of_mild (.respond _ _ _ _ _))
    · exact .of_mild (.respond _ _ _ _ _)
  | _ => exact .of_mild (.runRequest s n tag rfl)

theorem MemberKeeps.runFrame {s : State} {n : Port} (member : (s.port n).supervisor = false) (f : List Byte) :
    MemberKeeps n s (s.runFrame n f) := by
  unfold State.runFrame
  split
  · split
    · exact .of_mild (.respond _ _ _ _ _)
    · next h =>
      obtain ⟨wf, allowed⟩ := checkRequest_ok h
      exact .runRequest _ wf (member ▸ allowed)
  · exact .refl s

theorem MemberKeeps.serveFuel (n : Port) (k : Nat) (s : State) (member : (s.port n).supervisor = false) :
    MemberKeeps n s (State.serveFuel n k s) := by
  induction k generalizing s with
  | zero => exact .refl s
  | succ k ih =>
    unfold State.serveFuel
    split
    · next f rest b _ hq _ =>
      have taken : MemberKeeps n s (s.takeHead n b rest) := by
        obtain ⟨x, y, e⟩ := (s.port n).setBuf_buffers b .reserved
        have cfg : ((s.port n).setBuf b .reserved).cfg = (s.port n).cfg := by rw [e]
        exact .setPort s cfg
      have member' : ((s.takeHead n b rest).port n).supervisor = false :=
        ((takeHead_quiets s n b f rest hq).supervisor n).trans member
      exact taken.trans ((MemberKeeps.runFrame member' f).trans
        (ih _ (((runFrame_quiets _ n f).supervisor n).trans member')))
    · exact .refl s

theorem PortState.enqueue_cfg (f : List Byte) (p : PortState) :
    (p.enqueue f).cfg = p.cfg ∧ (p.enqueue f).supervisor = p.supervisor := by
  unfold PortState.enqueue
  split <;> exact ⟨rfl, rfl⟩

/-- A request row that answers a next state is the passage of its frame, or leaves the part as it is. -/
theorem exec_frame_cases {c : Instr} {n : Port} {f : List Byte} {s t : State} (hf : frameOf c = some (n, f))
    (h : exec c s = .next t) : t = s ∨ t = s.goodFrame n f := by
  rw [exec_of_frame hf, sendRequest] at h
  split at h
  · split at h
    · cases h; exact .inr rfl
    · cases h; exact .inl rfl
  · cases h

/-- Settles O60: the role check lets a member write its own port's items alone, and the other requests are mild. -/
theorem memberRequestsChangeNoConfiguration : Obligations.MemberRequestsChangeNoConfiguration := by
  intro c n f s t hf member h
  suffices t.store = s.store ∧ MemberKeeps n s t from
    ⟨this.1, this.2.modes, this.2.items, this.2.ops, this.2.held⟩
  obtain rfl | rfl := exec_frame_cases hf h
  · exact ⟨rfl, .refl t⟩
  · rw [State.goodFrame_eq]
    obtain ⟨cfg, supervisor⟩ :=
      PortState.enqueue_cfg f { s.port n with rx := .looking, asm := .hunt, gapTimer := none }
    exact ⟨(serve_quiets _ n).store, (MemberKeeps.setPort s cfg).trans
      (.serveFuel n _ _ (by rw [State.port_setPort_self, supervisor]; exact member))⟩

end Sys2Proof.Machine
end

section
/-! Events and responses (R131, R132, R140, R157 to R164). -/

namespace Sys2Proof.Machine

/-! ### Event kinds and the pending set (R157 to R159) -/

theorem EventKind.code_lt (k : EventKind) : k.code < 11 := by cases k <;> decide

theorem EventKind.getLsbD_bit (k : EventKind) (j : Nat) : k.bit.getLsbD j = decide (j = k.code) := by
  have := k.code_lt
  by_cases e : j = k.code
  · simp [EventKind.bit, e, this]
  · simp [EventKind.bit, BitVec.getLsbD_twoPow, e, Ne.symm e]

theorem PortState.pendingSet_iff (p : PortState) (k : Nat) :
    p.pendingSet.getLsbD k = true ↔
      p.sticky.getLsbD k = true ∨ (k = 2 ∧ p.linkErrors ≠ 0) ∨ (k = 4 ∧ p.loaded ≠ 0) := by
  have derived (c : Prop) [Decidable c] (e : EventKind) :
      (if c then e.bit else 0).getLsbD k = true ↔ k = e.code ∧ c := by
    split
    · next h => simp [EventKind.getLsbD_bit, h]
    · next h => simp [h]
  unfold PortState.pendingSet
  rw [BitVec.getLsbD_or, BitVec.getLsbD_or, Bool.or_eq_true, Bool.or_eq_true, derived, derived, or_assoc]
  rfl

/-! ### The top event (R162) -/

/-- The level of a kind at a port. -/
def PortState.level (p : PortState) (k : Fin 11) : Nat := (p.cfg.levels[k]).val

/-- A kind that is pending at a port. -/
def PortState.isPending (p : PortState) (k : Fin 11) : Prop := p.pendingSet.getLsbD k.val = true

/-- The best of a rising list of kinds: the one before, or the first of the pending kinds with the highest level. -/
theorem topStep_foldl (p : PortState) {ks : List (Fin 11)} (rising : ks.Pairwise (· < ·)) (best : Nat × Nat) :
    (ks.foldl (topStep p) best = best ∧ ∀ k ∈ ks, p.isPending k → p.level k ≤ best.2) ∨
      ∃ k ∈ ks, ks.foldl (topStep p) best = (k.val, p.level k) ∧ p.isPending k ∧ best.2 < p.level k ∧
        ∀ j ∈ ks, p.isPending j → p.level j < p.level k ∨ (p.level j = p.level k ∧ k.val ≤ j.val) := by
  induction ks generalizing best with
  | nil => exact .inl ⟨rfl, by simp⟩
  | cons a ks ih =>
    obtain ⟨first, rising⟩ := List.pairwise_cons.1 rising
    by_cases better : p.isPending a ∧ best.2 < p.level a
    · have taken : topStep p best a = (a.val, p.level a) := by
        refine if_pos ?_
        simp only [Bool.and_eq_true, decide_eq_true_eq]
        exact better
      rw [List.foldl_cons, taken]
      obtain ⟨e, others⟩ | ⟨k, hk, e, pending, above, others⟩ := ih rising (a.val, p.level a)
      · refine .inr ⟨a, List.mem_cons_self, e, better.1, better.2, fun j hj hp => ?_⟩
        rcases List.mem_cons.1 hj with rfl | hj
        · exact .inr ⟨rfl, Nat.le_refl _⟩
        · exact (Nat.lt_or_eq_of_le (others j hj hp)).imp_right fun e => ⟨e, Nat.le_of_lt (first j hj)⟩
      · refine .inr ⟨k, List.mem_cons_of_mem _ hk, e, pending, better.2.trans above, fun j hj hp => ?_⟩
        rcases List.mem_cons.1 hj with rfl | hj
        · exact .inl above
        · exact others j hj hp
    · have kept : topStep p best a = best := by
        refine if_neg fun h => better ?_
        simp only [Bool.and_eq_true, decide_eq_true_eq] at h
        exact h
      have not_above (hp : p.isPending a) : p.level a ≤ best.2 := Nat.le_of_not_lt fun h => better ⟨hp, h⟩
      rw [List.foldl_cons, kept]
      obtain ⟨e, others⟩ | ⟨k, hk, e, pending, above, others⟩ := ih rising best
      · refine .inl ⟨e, fun k hk hp => ?_⟩
        rcases List.mem_cons.1 hk with rfl | hk
        · exact not_above hp
        · exact others k hk hp
      · refine .inr ⟨k, List.mem_cons_of_mem _ hk, e, pending, above, fun j hj hp => ?_⟩
        rcases List.mem_cons.1 hj with rfl | hj
        · exact .inl (Nat.lt_of_le_of_lt (not_above hp) above)
        · exact others j hj hp

theorem mem_allKinds (k : Fin 11) : k ∈ allKinds := by revert k; decide

/-- The top event: none, or the pending kind of the highest level, the lowest code among equals. -/
theorem PortState.topEvent_cases (p : PortState) :
    (p.topEvent = 15 ∧ ∀ k, p.isPending k → p.level k = 0) ∨
      ∃ k : Fin 11, p.topEvent = k.val ∧ p.isPending k ∧ 1 ≤ p.level k ∧
        ∀ j, p.isPending j → p.level j < p.level k ∨ (p.level j = p.level k ∧ k.val ≤ j.val) := by
  have rising : allKinds.Pairwise (· < ·) := by decide
  obtain ⟨e, others⟩ | ⟨k, -, e, pending, above, others⟩ := topStep_foldl p rising (15, 0)
  · exact .inl ⟨congrArg Prod.fst e, fun k hp => Nat.le_zero.1 (others k (mem_allKinds k) hp)⟩
  · exact .inr ⟨k, congrArg Prod.fst e, pending, above, fun j => others j (mem_allKinds j)⟩

theorem PortState.topEvent_le (p : PortState) : p.topEvent ≤ 15 := by
  obtain ⟨e, -⟩ | ⟨k, e, -⟩ := p.topEvent_cases <;> omega

/-- There is a top event exactly when a pending kind has a level (R163). -/
theorem PortState.topEvent_ne_iff (p : PortState) : p.topEvent ≠ 15 ↔ ∃ k, p.isPending k ∧ 1 ≤ p.level k := by
  obtain ⟨e, zero⟩ | ⟨k, e, pending, level, -⟩ := p.topEvent_cases
  · refine iff_of_false (fun h => h e) fun ⟨k, hp, hl⟩ => ?_
    rw [zero k hp] at hl
    omega
  · exact iff_of_true (by omega) ⟨k, pending, level⟩

/-! ### The summary byte (R164) -/

/-- The fields of the summary byte lie beside each other. -/
theorem summary_fields : ∀ (top : Fin 16) (errors loading updated supervisor : Bool),
    (BitVec.ofNat 8 top.val ||| (if errors then 0x10 else 0) ||| (if loading then 0x20 else 0)
      ||| (if updated then 0x40 else 0) ||| (if supervisor then 0x80 else 0) : Byte).toNat =
    top.val + (if errors then 16 else 0) + (if loading then 32 else 0) + (if updated then 64 else 0)
      + (if supervisor then 128 else 0) := by decide

theorem State.toNat_summaryByte (s : State) (n : Port) :
    (s.summaryByte n).toNat =
      (s.port n).topEvent + (if (s.port n).linkErrors = 0 then 0 else 16) + (if s.engine = none then 0 else 32) +
        (if s.log.updated then 64 else 0) + (if (s.port n).supervisor then 128 else 0) := by
  have fields := summary_fields ⟨(s.port n).topEvent, Nat.lt_succ_of_le (s.port n).topEvent_le⟩
    (decide ((s.port n).linkErrors ≠ 0)) s.engine.isSome s.log.updated (s.port n).supervisor
  have errors : (if (s.port n).linkErrors = 0 then 0 else 16) = if (s.port n).linkErrors ≠ 0 then 16 else 0 :=
    (ite_not ..).symm
  have loading : (if s.engine = none then 0 else 32) = if s.engine.isSome then 32 else 0 := by cases s.engine <;> rfl
  rw [errors, loading, State.summaryByte]
  simpa only [decide_eq_true_eq] using fields

/-- Settles O24: the flags by their codes, the best of the pending kinds, and the fields of the summary byte. -/
theorem topEventAndSummary : Obligations.TopEventAndSummary := by
  refine ⟨fun kind => ?_, fun p k => p.pendingSet_iff k.val, PortState.topEvent_cases, fun s n => ⟨?_, s.toNat_summaryByte n⟩⟩
  · intro code
    have named : code = kind.code := by cases kind <;> rfl
    rw [named]
    exact ⟨fun k => kind.getLsbD_bit k.val, fun p => rfl, fun s => ⟨fun n => rfl, fun n => s.port_raiseAll kind n, rfl⟩⟩
  · rw [State.alertDriven, Bool.and_eq_true, Bool.not_eq_true', decide_eq_true_eq, PortState.topEvent_ne_iff]
    rfl

/-! ### Responses (R131, R132, R140) -/

namespace PortState

variable {p : PortState}

theorem buf_of_reservedBuf {k : BufId} (h : p.reservedBuf = some k) : p.buf k = .reserved := by
  unfold reservedBuf at h
  split at h
  · next e => cases h; exact e
  · next e _ => cases h; exact e
  · cases h

@[simp] theorem buf_setBuf_self (p : PortState) (k : BufId) (x : Buffer) : (p.setBuf k x).buf k = x := by cases k <;> rfl

theorem buf_setBuf_of_ne (p : PortState) {k j : BufId} (h : j ≠ k) (x : Buffer) : (p.setBuf k x).buf j = p.buf j := by
  cases k <;> cases j
  case zero.zero | one.one => exact absurd rfl h
  all_goals rfl

/-- The transmitter is IDLE exactly when no buffer is SENDING. -/
theorem sendingBuf_eq_none_iff (p : PortState) : p.sendingBuf = none ↔ ∀ j r form, p.buf j ≠ .sending r form := by
  refine ⟨fun h j r form e => ?_, fun h => ?_⟩
  · unfold sendingBuf at h
    split at h
    · cases h
    · cases h
    · next not_zero not_one =>
      cases j
      · exact not_zero _ _ e
      · exact not_one _ _ e
  · unfold sendingBuf
    split
    · next e => exact absurd e (h .zero _ _)
    · next e _ => exact absurd e (h .one _ _)
    · rfl

/-- A buffer that starts keeps its frame. -/
theorem response_startTransmitter (p : PortState) (j : BufId) :
    (p.startTransmitter.buf j).response = (p.buf j).response := by
  unfold startTransmitter
  split
  · split
    · next k r filled =>
      have held : p.buf k = .filled r := by
        unfold filledBuf at filled
        split at filled
        · next e => cases filled; exact e
        · next e _ => cases filled; exact e
        · cases filled
      by_cases e : j = k
      · rw [e, buf_setBuf_self, held]; rfl
      · rw [buf_setBuf_of_ne p e]
    · rfl
  · rfl

/-- A transmitter at work goes on. -/
theorem startTransmitter_of_sending (h : p.sendingBuf ≠ none) : p.startTransmitter = p := by
  refine if_neg fun hc => h ?_
  simpa using (Bool.and_eq_true_iff.1 hc).2

/-- An IDLE transmitter starts the one FILLED buffer. -/
theorem startTransmitter_of_filled {k : BufId} {r : Response} (link : p.cfg.linkOn = true)
    (idle : p.sendingBuf = none) (filled : p.filledBuf = some (k, r)) :
    p.startTransmitter = p.setBuf k (.sending r p.form) := by
  simp only [startTransmitter, link, idle, filled, Option.isNone_none, Bool.and_self, if_true]

theorem filledBuf_setBuf {k : BufId} (reserved : p.buf k = .reserved) (none_filled : p.filledBuf = none) (r : Response) :
    (p.setBuf k (.filled r)).filledBuf = some (k, r) := by
  obtain ⟨_, _, _, _, _, _, buf0, buf1⟩ := p
  cases k
  · rfl
  · cases buf0 with
    | filled => cases none_filled
    | _ => rfl

theorem sendingBuf_setBuf {k : BufId} (reserved : p.buf k = .reserved) (r : Response) :
    (p.setBuf k (.filled r)).sendingBuf = none ↔ p.sendingBuf = none := by
  rw [sendingBuf_eq_none_iff, sendingBuf_eq_none_iff]
  refine forall_congr' fun j => ?_
  by_cases e : j = k
  · subst e; simp [reserved]
  · rw [buf_setBuf_of_ne p e]

end PortState

/-- The port whose response is completed. -/
def PortState.answered (p : PortState) (k : BufId) (r : Response) : PortState :=
  ({ p.setBuf k (.filled r) with ce := .idle }).startTransmitter

theorem State.respond_of_reserved {s : State} {n : Port} {k : BufId} (h : (s.port n).reservedBuf = some k) (tag : Byte)
    (st : FrameStatus) (body : List Byte) :
    s.respond n tag st body = s.setPort n ((s.port n).answered k
      { tag := tag, status := frameCode st, summary := s.summaryByte n, body := body }) := by
  simp only [State.respond, h]
  rfl

theorem State.respond_of_none {s : State} {n : Port} (h : (s.port n).reservedBuf = none) (tag : Byte)
    (st : FrameStatus) (body : List Byte) : s.respond n tag st body = s.setPort n { s.port n with ce := .idle } := by
  simp only [State.respond, h]
  rfl

section Answered

variable {p : PortState} {k : BufId} (reserved : p.reservedBuf = some k) (r : Response)

theorem PortState.answered_frame (p : PortState) (k : BufId) (r : Response) :
    p.answered k r = { p with ce := .idle, buf0 := (p.answered k r).buf0, buf1 := (p.answered k r).buf1 } := by
  obtain ⟨a, b, filled⟩ := p.setBuf_buffers k (.filled r)
  obtain ⟨x, y, started⟩ := PortState.startTransmitter_buffers { p with buf0 := a, buf1 := b, ce := .idle }
  rw [PortState.answered, filled, started]

theorem PortState.response_answered_self (p : PortState) (k : BufId) (r : Response) :
    ((p.answered k r).buf k).response = some r := by
  rw [PortState.answered, PortState.response_startTransmitter]
  show ((p.setBuf k (.filled r)).buf k).response = some r
  rw [PortState.buf_setBuf_self]
  rfl

theorem PortState.response_answered_of_ne (p : PortState) {k j : BufId} (h : j ≠ k) (r : Response) :
    ((p.answered k r).buf j).response = (p.buf j).response := by
  rw [PortState.answered, PortState.response_startTransmitter]
  exact congrArg Buffer.response (p.buf_setBuf_of_ne h _)

include reserved

theorem PortState.answered_of_sending (busy : p.sendingBuf ≠ none) :
    p.answered k r = { p.setBuf k (.filled r) with ce := .idle } :=
  PortState.startTransmitter_of_sending fun h =>
    busy ((PortState.sendingBuf_setBuf (PortState.buf_of_reservedBuf reserved) r).1 h)

theorem PortState.buf_answered_of_idle (link : p.cfg.linkOn = true) (idle : p.sendingBuf = none)
    (none_filled : p.filledBuf = none) : (p.answered k r).buf k = .sending r p.form := by
  have held := PortState.buf_of_reservedBuf reserved
  have cfg : (p.setBuf k (.filled r)).cfg = p.cfg := by
    obtain ⟨a, b, e⟩ := p.setBuf_buffers k (.filled r)
    rw [e]
  have started := PortState.startTransmitter_of_filled (p := { p.setBuf k (.filled r) with ce := .idle }) (cfg ▸ link)
    ((PortState.sendingBuf_setBuf held r).2 idle) (PortState.filledBuf_setBuf held none_filled r)
  rw [PortState.answered, started, PortState.buf_setBuf_self]
  simp only [PortState.form, cfg]

end Answered

/-- Settles O23: the RESERVED buffer takes the frame, and an IDLE transmitter starts it. -/
theorem responseIsCompleted : Obligations.ResponseIsCompleted := by
  refine ⟨fun s n k tag st body reserved => ?_, fun s n tag st body h => State.respond_of_none h tag st body,
    fun s n tag st body link => ?_⟩
  · intro t code r
    have named : code = frameCode st := by cases st <;> rfl
    have done : t = s.setPort n ((s.port n).answered k r) := by
      show s.respond n tag st body = _
      rw [State.respond_of_reserved reserved tag st body, ← named]
    have port : t.port n = (s.port n).answered k r := by rw [done, State.port_setPort_self]
    rw [port]
    refine ⟨done, PortState.answered_frame _ _ _, PortState.response_answered_self _ _ _,
      fun j hj => PortState.response_answered_of_ne _ hj _, fun busy => ?_, fun link idle none_filled => ?_⟩
    · rw [PortState.answered_of_sending reserved r (Option.isSome_iff_ne_none.1 busy)]
      exact ⟨(s.port n).buf_setBuf_self k _, fun j hj => (s.port n).buf_setBuf_of_ne hj _⟩
    · exact PortState.buf_answered_of_idle reserved r link idle none_filled
  · have port : (s.writeItem .linkEnable n 0).port n = { (s.port n).portReset with
        cfg := Item.linkEnable.writtenCfg 0 (s.port n).cfg } := by
      rw [State.port_writeItem, if_pos rfl, PortState.written, if_neg (by rw [link]; decide)]
    have idle : { (s.writeItem .linkEnable n 0).port n with ce := .idle } = (s.writeItem .linkEnable n 0).port n := by
      rw [port]; rfl
    rw [State.respond_of_none (by rw [port]; rfl), idle, State.setPort_port]

end Sys2Proof.Machine
end

section
/-! The layouts of chapter 13 in both directions: fields of several bytes as numbers, and the codes of groups, ports, pages,
items and control bytes. -/

namespace Sys2Proof.Machine

/-! ### Bytes as numbers -/

theorem bytesNat_fold (bs : List Byte) (acc : Nat) :
    bs.foldl (fun a b => 256 * a + b.toNat) acc = acc * 256 ^ bs.length + bytesNat bs := by
  induction bs generalizing acc with
  | nil => simp [bytesNat]
  | cons b bs ih =>
    have first : bytesNat (b :: bs) = (256 * 0 + b.toNat) * 256 ^ bs.length + bytesNat bs := ih _
    rw [List.foldl_cons, ih, first, List.length_cons, Nat.pow_succ]
    ring

theorem bytesNat_cons (b : Byte) (bs : List Byte) : bytesNat (b :: bs) = b.toNat * 256 ^ bs.length + bytesNat bs := by
  rw [bytesNat, List.foldl_cons, bytesNat_fold]
  simp

theorem bytesNat_lt (bs : List Byte) : bytesNat bs < 256 ^ bs.length := by
  induction bs with
  | nil => decide
  | cons b bs ih =>
    have hb : b.toNat + 1 ≤ 256 := b.isLt
    have := Nat.mul_le_mul_right (256 ^ bs.length) hb
    rw [bytesNat_cons, List.length_cons, Nat.pow_succ]
    rw [Nat.add_mul] at this
    omega

/-- As many bytes spelling the same number are the same bytes. -/
theorem bytesNat_inj {as bs : List Byte} (hl : as.length = bs.length) (h : bytesNat as = bytesNat bs) : as = bs := by
  induction as generalizing bs with
  | nil => exact (List.length_eq_zero_iff.1 hl.symm).symm
  | cons a as ih =>
    cases bs with
    | nil => cases hl
    | cons b bs =>
      have hl : as.length = bs.length := Nat.succ.inj hl
      rw [bytesNat_cons, bytesNat_cons, hl] at h
      have ha := hl ▸ bytesNat_lt as
      have hb := bytesNat_lt bs
      have pos : 0 < 256 ^ bs.length := Nat.pow_pos (by decide)
      have head : a.toNat = b.toNat := by
        have := congrArg (· / 256 ^ bs.length) h
        simpa only [Nat.mul_comm _ (256 ^ bs.length), Nat.mul_add_div pos, Nat.div_eq_of_lt ha, Nat.div_eq_of_lt hb,
          Nat.add_zero] using this
      rw [head] at h
      rw [BitVec.eq_of_toNat_eq head, ih hl (Nat.add_left_cancel h)]

theorem bytesNat_halfBytes (h : Half) : bytesNat (halfBytes h) = h.toNat := by
  have := h.isLt
  simp only [halfBytes, bytesNat, List.foldl_cons, List.foldl_nil, toNat_byte_at]
  omega

theorem bytesNat_valueBytes (v : Value) : bytesNat (valueBytes v) = v.toNat := by
  have := v.isLt
  simp only [valueBytes, bytesNat, List.foldl_cons, List.foldl_nil, toNat_byte_at]
  omega

theorem toNat_append_byte {w : Nat} (v : BitVec w) (b : Byte) : (v ++ b).toNat = 256 * v.toNat + b.toNat := by
  rw [BitVec.toNat_append, ← Nat.shiftLeft_add_eq_or_of_lt b.isLt, Nat.shiftLeft_eq]
  omega

theorem toNat_half (hi lo : Byte) : (half hi lo).toNat = bytesNat [hi, lo] := by
  rw [half, toNat_append_byte]
  simp [bytesNat]

theorem toNat_value32 (a b c d : Byte) : (value32 a b c d).toNat = bytesNat [a, b, c, d] := by
  rw [value32, toNat_append_byte, toNat_append_byte, toNat_append_byte]
  simp [bytesNat]

@[simp] theorem halfBytes_half (hi lo : Byte) : halfBytes (half hi lo) = [hi, lo] :=
  bytesNat_inj rfl (by rw [bytesNat_halfBytes, toNat_half])

@[simp] theorem valueBytes_value32 (a b c d : Byte) : valueBytes (value32 a b c d) = [a, b, c, d] :=
  bytesNat_inj rfl (by rw [bytesNat_valueBytes, toNat_value32])

/-- Two bytes of a field put together again. -/
@[simp] theorem half_bytes (h : Half) : half (h.extractLsb' 8 8) (h.extractLsb' 0 8) = h :=
  BitVec.eq_of_toNat_eq (by rw [toNat_half]; exact bytesNat_halfBytes h)

@[simp] theorem value32_bytes (v : Value) :
    value32 (v.extractLsb' 24 8) (v.extractLsb' 16 8) (v.extractLsb' 8 8) (v.extractLsb' 0 8) = v :=
  BitVec.eq_of_toNat_eq (by rw [toNat_value32]; exact bytesNat_valueBytes v)

theorem itemValueBytes_valueOf (i : Item) {bs : List Byte} (h : bs.length = i.len) : itemValueBytes i (valueOf bs) = bs := by
  have short : bs.length ≤ 8 := h ▸ i.len_le
  refine bytesNat_inj ((length_itemValueBytes _ _).trans h.symm) ?_
  rw [bytesNat_itemValueBytes i (h ▸ valueOf_lt bs short), toNat_valueOf short]

/-- A field whose upper bits are 0 is its lower bits. -/
theorem setWidth_low {w : Nat} (v : BitVec w) (k : Nat) (h : v.toNat < 2 ^ k) : (v.extractLsb' 0 k).setWidth w = v := by
  refine BitVec.eq_of_toNat_eq ?_
  have lt := v.isLt
  rw [BitVec.toNat_setWidth, BitVec.extractLsb'_toNat, Nat.shiftRight_zero, Nat.mod_eq_of_lt h, Nat.mod_eq_of_lt lt]

theorem toNat_lt_of_upper {w : Nat} {v : BitVec w} {k l : Nat} (hw : w ≤ k + l) (h : v.extractLsb' k l = 0) :
    v.toNat < 2 ^ k := by
  have upper : v.toNat / 2 ^ k % 2 ^ l = 0 := by
    rw [← Nat.shiftRight_eq_div_pow, ← BitVec.extractLsb'_toNat, h]; rfl
  have lt : v.toNat / 2 ^ k < 2 ^ l := by
    refine Nat.div_lt_of_lt_mul (Nat.lt_of_lt_of_le v.isLt ?_)
    rw [← Nat.pow_add]
    exact Nat.pow_le_pow_right (by decide) hw
  rw [Nat.mod_eq_of_lt lt] at upper
  exact (Nat.div_eq_zero_iff.1 upper).resolve_left (by simp)

/-! ### Codes of one byte -/

theorem ofNat_byte {b : Byte} {k : Nat} (h : k = b.toNat) : BitVec.ofNat 8 k = b := by
  rw [h, BitVec.ofNat_toNat, BitVec.setWidth_eq]

theorem toNat_ofNat_byte {k : Nat} (h : k < 256) : (BitVec.ofNat 8 k : Byte).toNat = k := by
  rw [BitVec.toNat_ofNat]
  exact Nat.mod_eq_of_lt h

theorem groupOfNat_eq_some {k : Nat} {g : GroupId} : groupOfNat k = some g ↔ g.num = k := by
  unfold groupOfNat
  have := g.isLt
  split
  · next h => rw [Option.some_inj, Fin.ext_iff, GroupId.num]; dsimp only; omega
  · next h => simp only [reduceCtorEq, false_iff, GroupId.num]; omega

theorem groupOfNat_num (g : GroupId) : groupOfNat (BitVec.ofNat 8 g.num : Byte).toNat = some g := by
  have := g.isLt
  rw [groupOfNat_eq_some, toNat_ofNat_byte (by rw [GroupId.num]; omega)]

theorem portOfByte_eq_some {b : Byte} {m : Port} : portOfByte b = some m ↔ b.toNat = m.val := by
  unfold portOfByte
  have := m.isLt
  split
  · next h => rw [Option.some_inj, Fin.ext_iff]
  · next h => simp only [reduceCtorEq, false_iff]; omega

theorem portOfByte_val (m : Port) : portOfByte (BitVec.ofNat 8 m.val) = some m := by
  have := m.isLt
  rw [portOfByte_eq_some, toNat_ofNat_byte (by omega)]

theorem pageOf_eq_some {b : Byte} {l : Nat} : pageOf b = some l ↔ b.toNat = l ∧ l ≤ 63 := by
  unfold pageOf
  split
  · next h => simp only [Option.some.injEq]; omega
  · next h => simp only [reduceCtorEq, false_iff]; omega

theorem pageOf_ofNat {l : Nat} (h : l ≤ 63) : pageOf (BitVec.ofNat 8 l) = some l := by
  rw [pageOf_eq_some, toNat_ofNat_byte (by omega)]
  exact ⟨rfl, h⟩

theorem pointOf_eq_some {hi lo : Byte} {p : Nat} : pointOf hi lo = some p ↔ bytesNat [hi, lo] = p ∧ p ≤ 3839 := by
  unfold pointOf
  rw [toNat_half]
  split
  · next h => simp only [Option.some.injEq]; omega
  · next h => simp only [reduceCtorEq, false_iff]; omega

theorem natBytes2_bytesNat (hi lo : Byte) : natBytes2 (bytesNat [hi, lo]) = [hi, lo] := by
  rw [← toNat_half, natBytes2, BitVec.ofNat_toNat, BitVec.setWidth_eq, halfBytes_half]

theorem bytesNat_natBytes2 {k : Nat} (h : k < 65536) : bytesNat (natBytes2 k) = k := by
  rw [natBytes2, bytesNat_halfBytes, BitVec.toNat_ofNat]
  exact Nat.mod_eq_of_lt h

/-- The item that a code names has that code (11.2). -/
theorem code_of_itemOfCode {c : Byte} {i : Item} (h : itemOfCode c = some i) : i.code = c := by
  unfold itemOfCode at h
  split at h
  · next levels =>
    cases h
    exact ofNat_byte (by dsimp only; omega)
  · simpa using List.find?_some h

theorem itemOfCode_code (i : Item) : itemOfCode i.code = some i := by
  cases i with
  | level k => revert k; decide
  | _ => rfl

theorem portOf_eq_some {i : Item} {b : Byte} {m : Port} :
    i.portOf b = some m ↔ b.toNat = m.val ∧ (i.kind = .device → m = 0) := by
  unfold Item.portOf
  split
  · next device =>
    simp only [device, true_imp_iff]
    by_cases hb : b = 0
    · rw [if_pos hb, hb, Option.some_inj]
      exact ⟨fun e => ⟨congrArg Fin.val e, e.symm⟩, fun e => e.2.symm⟩
    · rw [if_neg hb]
      refine iff_of_false nofun fun ⟨e, zero⟩ => hb (BitVec.eq_of_toNat_eq ?_)
      rw [e, zero]; rfl
  · next other => rw [portOfByte_eq_some]; exact ⟨fun e => ⟨e, fun h => absurd h (by simpa using other)⟩, fun e => e.1⟩

/-! ### Control bytes (13.2) -/

/-- The bits of a control byte. -/
theorem decodeControl_bits : ∀ (less : Fin 16) (down masked prefer : Bool),
    decodeControl (BitVec.ofNat 8 less.val ||| (if down then 0x10 else 0) ||| (if masked then 0x20 else 0)
      ||| (if prefer then 0x40 else 0)) = some ⟨less.val + 1, down, masked, prefer⟩ := by decide

theorem control_bits : ∀ c : Byte, c.getLsbD 7 = false →
    (BitVec.ofNat 8 (c.extractLsb' 0 4).toNat ||| (if c.getLsbD 4 then 0x10 else 0) ||| (if c.getLsbD 5 then 0x20 else 0)
      ||| (if c.getLsbD 6 then 0x40 else 0) : Byte) = c := by decide

end Sys2Proof.Machine
end

section
/-! The decoding of requests (R141 step 3, R142, R144, R178, 13.2 to 13.4): what a decoder takes is what was sent, and what was
sent is taken. -/

namespace Sys2Proof.Machine

/-! ### Bits of fields -/

theorem extract_setWidth_low {k w : Nat} (v : BitVec k) (h : k ≤ w) : (v.setWidth w).extractLsb' 0 k = v := by
  refine BitVec.eq_of_getLsbD_eq fun i hi => ?_
  have : i < w := by omega
  simp [hi, this]

theorem extract_setWidth_high {k w : Nat} (v : BitVec k) (l : Nat) : (v.setWidth w).extractLsb' k l = 0 := by
  refine BitVec.eq_of_getLsbD_eq fun i hi => ?_
  simp

/-! ### Runs of accesses (R144) -/

/-- The access of a STAGE or POST run to one point. -/
def PointAccess.write (stage : Bool) (mask : Option Value) (v : Value) : PointAccess :=
  if stage then .stage v mask else .post v mask

@[simp] theorem PointAccess.sent_write (stage : Bool) (mask : Option Value) (v : Value) :
    (PointAccess.write stage mask v).sent = valueBytes v := by cases stage <;> rfl

@[simp] theorem PointAccess.mask_write (stage : Bool) (mask : Option Value) (v : Value) :
    (PointAccess.write stage mask v).mask = mask := by cases stage <;> rfl

@[simp] theorem PointAccess.prefers_write (stage : Bool) (mask : Option Value) (v : Value) :
    (PointAccess.write stage mask v).prefers = false := by cases stage <;> rfl

theorem writeAccesses_eq (stage : Bool) (mask : Option Value) (vs : List Value) :
    writeAccesses stage mask.isSome (mask.toList ++ vs) = vs.map (PointAccess.write stage mask) := by
  cases mask <;> rfl

/-- The accesses of a READ or READ_STAMPED run are alike. -/
theorem reads_of_runWf {shape : RecordShape} {todo : List PointAccess} (hs : shape ≠ .status)
    (h : runWf shape todo = true) :
    ∃ prefer, todo = List.replicate todo.length (.read prefer) ∧ 1 ≤ todo.length ∧ todo.length ≤ 16 := by
  simp only [runWf, Bool.and_eq_true, decide_eq_true_eq] at h
  obtain ⟨⟨one, sixteen⟩, alike⟩ := h
  have all_read {prefer : Bool} {rest : List PointAccess} (ha : rest.all (fun a => a == .read prefer) = true) :
      PointAccess.read prefer :: rest = List.replicate (rest.length + 1) (.read prefer) := by
    have alike : rest = List.replicate rest.length (.read prefer) := List.eq_replicate_of_mem (by simpa using ha)
    rw [List.replicate_succ, ← alike]
  split at alike
  · next p rest => exact ⟨p, all_read alike, one, sixteen⟩
  · next p rest => exact ⟨p, all_read alike, one, sixteen⟩
  · exact absurd rfl hs
  · exact absurd rfl hs
  · cases alike

/-- The accesses of a STAGE or POST run have one mask. -/
theorem writes_of_runWf {todo : List PointAccess} (h : runWf .status todo = true) :
    ∃ (stage : Bool) (mask : Option Value) (vs : List Value),
      todo = vs.map (PointAccess.write stage mask) ∧ 1 ≤ vs.length ∧ vs.length ≤ 16 := by
  simp only [runWf, Bool.and_eq_true, decide_eq_true_eq] at h
  obtain ⟨⟨one, sixteen⟩, alike⟩ := h
  have collect (stage : Bool) (mask : Option Value) (v : Value) (rest : List PointAccess)
      (ha : ∀ a ∈ rest, ∃ w, a = PointAccess.write stage mask w) :
      ∃ vs : List Value, PointAccess.write stage mask v :: rest = vs.map (PointAccess.write stage mask) := by
    induction rest with
    | nil => exact ⟨[v], rfl⟩
    | cons a rest ih =>
      obtain ⟨w, rfl⟩ := ha a List.mem_cons_self
      obtain ⟨vs, hvs⟩ := ih fun x hx => ha x (List.mem_cons_of_mem _ hx)
      cases vs with
      | nil => cases hvs
      | cons u us => exact ⟨v :: w :: us, by rw [List.map_cons, List.map_cons, (List.cons.inj hvs).2]⟩
  have done {stage : Bool} {mask : Option Value} (hv : ∃ vs : List Value, todo = vs.map (PointAccess.write stage mask)) :
      ∃ (stage : Bool) (mask : Option Value) (vs : List Value),
        todo = vs.map (PointAccess.write stage mask) ∧ 1 ≤ vs.length ∧ vs.length ≤ 16 := by
    obtain ⟨vs, hvs⟩ := hv
    rw [hvs, List.length_map] at one sixteen
    exact ⟨stage, mask, vs, hvs, one, sixteen⟩
  split at alike
  · contradiction
  · contradiction
  · next v m rest _ =>
    refine done (stage := true) (collect true m v rest fun a ha => ?_)
    have := List.all_eq_true.1 alike a ha
    cases a with
    | stage w m' => rw [show m' = m by simpa using this]; exact ⟨w, rfl⟩
    | _ => cases this
  · next v m rest _ =>
    refine done (stage := false) (collect false m v rest fun a ha => ?_)
    have := List.all_eq_true.1 alike a ha
    cases a with
    | post w m' => rw [show m' = m by simpa using this]; exact ⟨w, rfl⟩
    | _ => cases this
  · cases alike

theorem decodeControl_controlByte (down : Bool) {todo : List PointAccess} (one : 1 ≤ todo.length)
    (sixteen : todo.length ≤ 16) :
    decodeControl (controlByte down todo) = some
      ⟨todo.length, down, (todo.head?.bind PointAccess.mask).isSome, todo.head?.any PointAccess.prefers⟩ := by
  have bits := decodeControl_bits ⟨todo.length - 1, by omega⟩ down (todo.head?.bind PointAccess.mask).isSome
    (todo.head?.any PointAccess.prefers)
  rw [Nat.sub_add_cancel one] at bits
  exact bits

theorem controlByte_of_decode {c : Byte} {k : RunControl} (h : decodeControl c = some k) {todo : List PointAccess}
    (len : todo.length = k.count) (mask : (todo.head?.bind PointAccess.mask).isSome = k.masked)
    (prefer : todo.head?.any PointAccess.prefers = k.prefer) : controlByte k.down todo = c := by
  unfold decodeControl at h
  split at h
  · cases h
  · next seven =>
    cases h
    rw [controlByte, len, mask, prefer]
    exact control_bits c (by simpa using seven)

theorem runParams_reads (start : Half) (down : Bool) {count : Nat} (prefer : Bool) (one : 1 ≤ count) :
    runParams start down (List.replicate count (.read prefer)) =
      halfBytes start ++ [controlByte down (List.replicate count (.read prefer))] := by
  have sends_nothing : (List.replicate count (PointAccess.read prefer)).flatMap PointAccess.sent = [] := by
    simp [PointAccess.sent]
  have no_mask : (List.replicate count (PointAccess.read prefer)).head?.bind PointAccess.mask = none := by
    rw [List.head?_replicate, if_neg (by omega)]; rfl
  rw [runParams, sends_nothing, no_mask, List.append_nil, List.append_nil]

theorem runParams_writes (start : Half) (down stage : Bool) (mask : Option Value) {vs : List Value} (one : 1 ≤ vs.length) :
    runParams start down (vs.map (PointAccess.write stage mask)) =
      halfBytes start ++ controlByte down (vs.map (PointAccess.write stage mask)) ::
        (mask.toList ++ vs).flatMap valueBytes := by
  obtain ⟨v, vs, rfl⟩ := List.exists_cons_of_length_pos one
  cases mask <;> simp [runParams, List.flatMap_map]

/-! ### Values in fours -/

theorem values32_flatMap (vs : List Value) : values32 (vs.flatMap valueBytes) = vs := by
  induction vs with
  | nil => rfl
  | cons v vs ih =>
    show value32 _ _ _ _ :: values32 (vs.flatMap valueBytes) = _
    rw [value32_bytes, ih]

theorem flatMap_values32 (bs : List Byte) (h : bs.length % 4 = 0) : (values32 bs).flatMap valueBytes = bs := by
  induction bs using values32.induct with
  | case1 a b c d t ih =>
    have : t.length % 4 = 0 := by simp only [List.length_cons] at h; omega
    rw [values32, List.flatMap_cons, valueBytes_value32, ih this]
    rfl
  | case2 bs hb =>
    match bs, hb, h with
    | [], _, _ => rfl
    | [_], _, h => simp at h
    | [_, _], _, h => simp at h
    | [_, _, _], _, h => simp at h
    | a :: b :: c :: d :: t, hb, _ => exact absurd rfl (hb a b c d t)

theorem length_flatMap_valueBytes (vs : List Value) : (vs.flatMap valueBytes).length = 4 * vs.length := by
  induction vs with
  | nil => rfl
  | cons v vs ih => rw [List.flatMap_cons, List.length_append, ih, List.length_cons]; simp [valueBytes]; omega

/-! ### What was sent is taken -/

theorem decodeReadRun_params (shape : RecordShape) (start : Half) (down : Bool) {count : Nat} (prefer : Bool)
    (one : 1 ≤ count) (sixteen : count ≤ 16) :
    decodeReadRun shape (runParams start down (List.replicate count (.read prefer))) =
      some (.run shape start down (List.replicate count (.read prefer))) := by
  have control := decodeControl_controlByte down (todo := List.replicate count (.read prefer)) (by simpa using one)
    (by simpa using sixteen)
  have head : (List.replicate count (PointAccess.read prefer)).head? = some (.read prefer) := by
    rw [List.head?_replicate, if_neg (by omega)]
  rw [head, List.length_replicate] at control
  rw [runParams_reads start down prefer one]
  simp only [halfBytes, List.cons_append, List.nil_append, decodeReadRun, control, half_bytes]
  rfl

theorem decodeWriteRun_params (start : Half) (down stage : Bool) (mask : Option Value) {vs : List Value}
    (one : 1 ≤ vs.length) (sixteen : vs.length ≤ 16) :
    decodeWriteRun stage (runParams start down (vs.map (PointAccess.write stage mask))) =
      some (.run .status start down (vs.map (PointAccess.write stage mask))) := by
  have control := decodeControl_controlByte down (todo := vs.map (PointAccess.write stage mask)) (by simpa using one)
    (by simpa using sixteen)
  have len := length_flatMap_valueBytes (mask.toList ++ vs)
  have head : (vs.map (PointAccess.write stage mask)).head?.bind PointAccess.mask = mask ∧
      (vs.map (PointAccess.write stage mask)).head?.any PointAccess.prefers = false := by
    obtain ⟨v, vs, rfl⟩ := List.exists_cons_of_length_pos one
    simp
  rw [head.1, head.2, List.length_map] at control
  rw [runParams_writes start down stage mask one]
  simp only [halfBytes, List.cons_append, List.nil_append, decodeWriteRun, control, half_bytes, values32_flatMap,
    writeAccesses_eq, Bool.false_eq_true, if_false]
  refine if_neg (not_not_intro ?_)
  rw [len]
  cases mask with
  | none => simp
  | some m => simp only [Option.toList_some, List.length_append, List.length_singleton, Option.isSome_some, if_true]; omega

theorem decodeClear_params (flags : BitVec 6) {kinds : BitVec 11} (two : kinds.getLsbD 2 = false)
    (four : kinds.getLsbD 4 = false) :
    decodeClear (flags.setWidth 8 :: halfBytes (kinds.setWidth 16)) = some (.clear flags kinds) := by
  simp only [halfBytes, decodeClear, half_bytes, extract_setWidth_high, extract_setWidth_low flags (by omega : 6 ≤ 8),
    extract_setWidth_low kinds (by omega : 11 ≤ 16)]
  refine if_pos ⟨trivial, trivial, ?_, ?_⟩ <;> rw [BitVec.getLsbD_setWidth]
  · rw [two]; rfl
  · rw [four]; rfl

theorem decodeArm_params (g : GroupId) (now : Bool) :
    decodeArm [BitVec.ofNat 8 g.num, if now then formNow else formNext] = some (.arm g now) := by
  simp only [decodeArm, groupOfNat_num]
  cases now <;> rfl

theorem decodeGroup_params (mk : GroupId → Request) (g : GroupId) :
    decodeGroup mk [BitVec.ofNat 8 g.num] = some (mk g) := by
  simp only [decodeGroup, groupOfNat_num, Option.map_some]

theorem decodeGroupWrite_params (g : GroupId) (mode : GroupMode) (arms : BitVec 4) :
    decodeGroupWrite (Request.groupWrite g mode arms).params = some (.groupWrite g mode arms) := by
  simp only [Request.params, decodeGroupWrite, groupOfNat_num, extract_setWidth_high,
    extract_setWidth_low arms (by omega : 4 ≤ 8)]
  cases mode <;> rfl

theorem pointOf_natBytes2 {p : Nat} (h : p ≤ 3839) :
    pointOf ((BitVec.ofNat 16 p).extractLsb' 8 8) ((BitVec.ofNat 16 p).extractLsb' 0 8) = some p := by
  rw [pointOf_eq_some]
  exact ⟨bytesNat_natBytes2 (by omega), h⟩

theorem decodeDescRead_params {p : Nat} (h : p ≤ 3839) : decodeDescRead (natBytes2 p) = some (.descRead p) := by
  simp only [natBytes2, halfBytes, decodeDescRead, pointOf_natBytes2 h, Option.map_some]

theorem decodeDescWrite_params {p : Nat} (h : p ≤ 3839) {desc : Value} {d : Descriptor} (hd : decodeDesc desc = some d)
    (low high : Value) :
    decodeDescWrite (natBytes2 p ++ valueBytes desc ++ valueBytes low ++ valueBytes high) =
      some (.descWrite p d.policy desc low high) := by
  simp only [natBytes2, halfBytes, valueBytes, List.cons_append, List.nil_append, decodeDescWrite, pointOf_natBytes2 h,
    value32_bytes, hd]

theorem decodeMapRead_params (t : Port) {l : Nat} (h : l ≤ 63) :
    decodeMapRead [BitVec.ofNat 8 t.val, BitVec.ofNat 8 l] = some (.mapRead t l) := by
  simp only [decodeMapRead, portOfByte_val, pageOf_ofNat h]

theorem decodeMapWrite_params (t : Port) {l : Nat} (h : l ≤ 63) {e : Value}
    (he : entryPresent e = true → entryReservedClear e = true) :
    decodeMapWrite (BitVec.ofNat 8 t.val :: BitVec.ofNat 8 l :: valueBytes e) = some (.mapWrite t l (normalEntry e)) := by
  simp only [valueBytes, decodeMapWrite, portOfByte_val, pageOf_ofNat h, value32_bytes]
  refine if_neg fun hc => ?_
  obtain ⟨present, unclear⟩ := Bool.and_eq_true_iff.1 hc
  rw [he present] at unclear
  cases unclear

theorem decodeSettingRead_params {i : Item} {m : Port} (h : i.kind = .device → m = 0) :
    decodeSettingRead [i.code, BitVec.ofNat 8 m.val] = some (.settingRead i m) := by
  have port : i.portOf (BitVec.ofNat 8 m.val) = some m := by
    have := m.isLt
    rw [portOf_eq_some, toNat_ofNat_byte (by omega)]
    exact ⟨rfl, h⟩
  simp only [decodeSettingRead, itemOfCode_code, port, Option.map_some]

/-- A SETTING_WRITE with any byte as complement where the item has one. -/
theorem decodeSettingWrite_bytes {i : Item} {m : Port} (h : i.kind = .device → m = 0) {v : BitVec 64}
    (hr : i.inRange v = true) (hl : v.toNat < 2 ^ (8 * i.len)) (co : Byte) :
    decodeSettingWrite (i.code :: BitVec.ofNat 8 m.val :: (itemValueBytes i v ++ if i = .crcEnforcement then [co] else [])) =
      some (.settingWrite i m v (i != .crcEnforcement || co == ~~~(v.setWidth 8))) := by
  have port : i.portOf (BitVec.ofNat 8 m.val) = some m := by
    have := m.isLt
    rw [portOf_eq_some, toNat_ofNat_byte (by omega)]
    exact ⟨rfl, h⟩
  have len := length_itemValueBytes i v
  have value : (itemValueBytes i v ++ if i = .crcEnforcement then [co] else []).take i.len = itemValueBytes i v :=
    List.take_left' len
  have rest : (itemValueBytes i v ++ if i = .crcEnforcement then [co] else []).drop i.len =
      if i = .crcEnforcement then [co] else [] := List.drop_left' len
  simp only [decodeSettingWrite, itemOfCode_code, port, value, rest, valueOf_itemValueBytes i hl, hr]
  by_cases crc : i = .crcEnforcement
  · subst crc
    have byte : itemValueBytes .crcEnforcement v = [v.setWidth 8] := by
      rw [setWidth_eq_low v (by omega)]; rfl
    simp only [byte, if_true]
    simp [Item.writeLen, Bool.beq_eq_decide_eq]
  · have full : i.writeLen = i.len := Item.writeLen_of_ne crc
    simp [crc, full, len]

theorem decodeReset_bytes (scope : ResetScope) (co : Byte) :
    decodeReset [scopeByte scope, co] = some (.reset scope (co == ~~~(scopeByte scope))) := by
  have named : scopeOf (scopeByte scope) = some scope := by
    cases scope with
    | warm => rfl
    | port m => revert m; decide
  simp only [decodeReset, named, Option.map_some]

theorem pairByte_beq (value : Byte) (ok : Bool) : (pairByte value ok == ~~~value) = ok := by
  cases ok
  · have differs : ∀ v : Byte, (v == ~~~v) = false := by decide
    exact differs value
  · exact beq_self_eq_true _

/-- Settles O52: each decoder on its layout. -/
theorem requestLayoutsRoundTrip : Obligations.RequestLayoutsRoundTrip := by
  intro r wf
  cases r with
  | probe | status | loaded | cycle | logRead | logClear => exact ⟨_, rfl, rfl⟩
  | clear flags kinds =>
    simp only [Request.wf, Bool.and_eq_true, Bool.not_eq_true'] at wf
    exact ⟨_, rfl, decodeClear_params flags wf.1 wf.2⟩
  | run shape start down todo =>
    cases shape with
    | read =>
      obtain ⟨prefer, e, one, sixteen⟩ := reads_of_runWf (shape := .read) (todo := todo) nofun wf
      rw [e]
      exact ⟨_, rfl, decodeReadRun_params .read start down prefer one sixteen⟩
    | stamped =>
      obtain ⟨prefer, e, one, sixteen⟩ := reads_of_runWf (shape := .stamped) (todo := todo) nofun wf
      rw [e]
      exact ⟨_, rfl, decodeReadRun_params .stamped start down prefer one sixteen⟩
    | status =>
      obtain ⟨stage, mask, vs, rfl, one, sixteen⟩ := writes_of_runWf wf
      have taken := decodeWriteRun_params start down stage mask one sixteen
      obtain ⟨v, vs, rfl⟩ := List.exists_cons_of_length_pos one
      cases stage <;> exact ⟨_, rfl, taken⟩
  | arm g now => exact ⟨_, rfl, decodeArm_params g now⟩
  | discard g => exact ⟨_, rfl, decodeGroup_params .discard g⟩
  | groupStatus g => exact ⟨_, rfl, decodeGroup_params .groupStatus g⟩
  | descRead p => exact ⟨_, rfl, decodeDescRead_params (of_decide_eq_true wf)⟩
  | descWrite p policy desc low high =>
    simp only [Request.wf, Bool.and_eq_true, decide_eq_true_eq] at wf
    obtain ⟨hp, admitted⟩ := wf
    cases hd : decodeDesc desc with
    | none => rw [hd] at admitted; cases admitted
    | some d =>
      rw [hd, Option.any_some, beq_iff_eq] at admitted
      rw [← admitted]
      exact ⟨_, rfl, decodeDescWrite_params hp hd low high⟩
  | groupWrite g mode arms => exact ⟨_, rfl, decodeGroupWrite_params g mode arms⟩
  | mapRead t l => exact ⟨_, rfl, decodeMapRead_params t (of_decide_eq_true wf)⟩
  | mapWrite t l e =>
    simp only [Request.wf, Bool.and_eq_true, decide_eq_true_eq] at wf
    obtain ⟨hl, entry⟩ := wf
    have normal : normalEntry e = e := by
      unfold normalEntry
      split
      · rfl
      · next absent => rw [if_neg absent] at entry; exact (by simpa using entry : e = 0).symm
    have clear (present : entryPresent e = true) : entryReservedClear e = true := by rwa [if_pos present] at entry
    exact ⟨_, rfl, (decodeMapWrite_params t hl clear).trans (by rw [normal])⟩
  | flush t => exact ⟨_, rfl, by simp only [Request.params, decodeFlush, portOfByte_val, Option.map_some]⟩
  | settingRead i m =>
    have device (hk : i.kind = .device) : m = 0 := by simpa [Request.wf, hk] using wf
    exact ⟨_, rfl, decodeSettingRead_params device⟩
  | settingWrite i m v ok =>
    simp only [Request.wf, Bool.and_eq_true, decide_eq_true_eq] at wf
    obtain ⟨⟨⟨port, inRange⟩, fits⟩, pair⟩ := wf
    have device (hk : i.kind = .device) : m = 0 := by simpa [hk] using port
    have matched : (i != .crcEnforcement || pairByte (v.setWidth 8) ok == ~~~(v.setWidth 8)) = ok := by
      rw [pairByte_beq]
      by_cases crc : i = .crcEnforcement
      · simp [crc]
      · simp only [beq_eq_false_iff_ne.2 crc, Bool.or_false] at pair
        simp [pair]
    refine ⟨_, rfl, (decodeSettingWrite_bytes device inRange fits (pairByte (v.setWidth 8) ok)).trans ?_⟩
    rw [matched]
  | reset scope ok => exact ⟨_, rfl, (decodeReset_bytes scope _).trans (by rw [pairByte_beq])⟩

end Sys2Proof.Machine
end

section
/-! What a decoder takes (R141 step 3): the bytes it has read, decoder by decoder; their number, their ranges and the layout. -/

namespace Sys2Proof.Machine

/-! ### Each decoder, read backwards -/

section Inversions

variable {ps : List Byte} {r : Request}

theorem noParams_some {q : Request} (h : noParams q ps = some r) : ps = [] ∧ r = q := by
  cases ps with
  | nil => cases h; exact ⟨rfl, rfl⟩
  | cons => cases h

theorem decodeClear_some (h : decodeClear ps = some r) :
    ∃ f hi lo : Byte, ps = [f, hi, lo] ∧ f.extractLsb' 6 2 = 0 ∧ (half hi lo).extractLsb' 11 5 = 0 ∧
      (half hi lo).getLsbD 2 = false ∧ (half hi lo).getLsbD 4 = false ∧
      r = .clear (f.extractLsb' 0 6) ((half hi lo).extractLsb' 0 11) := by
  unfold decodeClear at h
  split at h
  · next f hi lo =>
    split at h
    · next hc => cases h; exact ⟨f, hi, lo, rfl, hc.1, hc.2.1, hc.2.2.1, hc.2.2.2, rfl⟩
    · cases h
  · cases h

theorem decodeReadRun_some {shape : RecordShape} (h : decodeReadRun shape ps = some r) :
    ∃ (hi lo c : Byte) (k : RunControl), ps = [hi, lo, c] ∧ decodeControl c = some k ∧ k.masked = false ∧
      r = .run shape (half hi lo) k.down (List.replicate k.count (.read k.prefer)) := by
  unfold decodeReadRun at h
  split at h
  · next hi lo c =>
    split at h
    · cases h
    · next k hk =>
      split at h
      · cases h
      · next unmasked => cases h; exact ⟨hi, lo, c, k, rfl, hk, by simpa using unmasked, rfl⟩
  · cases h

theorem decodeWriteRun_some {stage : Bool} (h : decodeWriteRun stage ps = some r) :
    ∃ (hi lo c : Byte) (rest : List Byte) (k : RunControl), ps = hi :: lo :: c :: rest ∧ decodeControl c = some k ∧
      k.prefer = false ∧ rest.length = (if k.masked then 4 else 0) + 4 * k.count ∧
      r = .run .status (half hi lo) k.down (writeAccesses stage k.masked (values32 rest)) := by
  unfold decodeWriteRun at h
  split at h
  · next hi lo c rest =>
    split at h
    · cases h
    · next k hk =>
      split at h
      · cases h
      · next plain =>
        by_cases hl : rest.length = (if k.masked then 4 else 0) + 4 * k.count
        · rw [if_neg (not_not_intro hl)] at h
          cases h
          exact ⟨hi, lo, c, rest, k, rfl, hk, by simpa using plain, hl, rfl⟩
        · rw [if_pos hl] at h; cases h
  · cases h

theorem decodeArm_some (h : decodeArm ps = some r) :
    ∃ (g : GroupId) (b : Byte) (now : Bool), ps = [b, if now then formNow else formNext] ∧ g.num = b.toNat ∧
      r = .arm g now := by
  unfold decodeArm at h
  split at h
  · next b form =>
    split at h
    · cases h
    · next g hg =>
      split at h
      · next e => cases h; exact ⟨g, b, true, by rw [e]; rfl, groupOfNat_eq_some.1 hg, rfl⟩
      · split at h
        · next e => cases h; exact ⟨g, b, false, by rw [e]; rfl, groupOfNat_eq_some.1 hg, rfl⟩
        · cases h
  · cases h

theorem decodeGroup_some {mk : GroupId → Request} (h : decodeGroup mk ps = some r) :
    ∃ (g : GroupId) (b : Byte), ps = [b] ∧ g.num = b.toNat ∧ r = mk g := by
  unfold decodeGroup at h
  split at h
  · next b =>
    obtain ⟨g, hg, rfl⟩ := Option.map_eq_some_iff.1 h
    exact ⟨g, b, rfl, groupOfNat_eq_some.1 hg, rfl⟩
  · cases h

theorem decodeGroupWrite_some (h : decodeGroupWrite ps = some r) :
    ∃ (g : GroupId) (b a : Byte) (mode : GroupMode), ps = [b, modeCode mode, a] ∧ g.num = b.toNat ∧
      a.extractLsb' 4 4 = 0 ∧ r = .groupWrite g mode (a.extractLsb' 0 4) := by
  unfold decodeGroupWrite at h
  split at h
  · next b m a =>
    split at h
    · cases h
    · next g hg =>
      by_cases upper : a.extractLsb' 4 4 = 0
      · rw [if_neg (not_not_intro upper)] at h
        split at h
        · next e => cases h; exact ⟨g, b, a, .manual, by rw [e]; rfl, groupOfNat_eq_some.1 hg, upper, rfl⟩
        · split at h
          · next e => cases h; exact ⟨g, b, a, .cyclic, by rw [e]; rfl, groupOfNat_eq_some.1 hg, upper, rfl⟩
          · cases h
      · rw [if_pos upper] at h; cases h
  · cases h

theorem decodeDescRead_some (h : decodeDescRead ps = some r) :
    ∃ hi lo : Byte, ps = [hi, lo] ∧ bytesNat [hi, lo] ≤ 3839 ∧ r = .descRead (bytesNat [hi, lo]) := by
  unfold decodeDescRead at h
  split at h
  · next hi lo =>
    obtain ⟨p, hp, rfl⟩ := Option.map_eq_some_iff.1 h
    obtain ⟨rfl, le⟩ := pointOf_eq_some.1 hp
    exact ⟨hi, lo, rfl, le, rfl⟩
  · cases h

theorem decodeDescWrite_some (h : decodeDescWrite ps = some r) :
    ∃ (hi lo : Byte) (desc low high : Value) (d : Descriptor),
      ps = hi :: lo :: (valueBytes desc ++ valueBytes low ++ valueBytes high) ∧ bytesNat [hi, lo] ≤ 3839 ∧
      decodeDesc desc = some d ∧ r = .descWrite (bytesNat [hi, lo]) d.policy desc low high := by
  unfold decodeDescWrite at h
  split at h
  · next hi lo d3 d2 d1 d0 l3 l2 l1 l0 h3 h2 h1 h0 =>
    split at h
    · next p d hp hd =>
      cases h
      obtain ⟨rfl, le⟩ := pointOf_eq_some.1 hp
      exact ⟨hi, lo, _, _, _, d, by simp only [valueBytes_value32]; rfl, le, hd, rfl⟩
    · cases h
  · cases h

theorem decodeMapRead_some (h : decodeMapRead ps = some r) :
    ∃ (t : Port) (b l : Byte), ps = [b, l] ∧ b.toNat = t.val ∧ l.toNat ≤ 63 ∧ r = .mapRead t l.toNat := by
  unfold decodeMapRead at h
  split at h
  · next b l =>
    split at h
    · next t page ht hp =>
      cases h
      obtain ⟨rfl, le⟩ := pageOf_eq_some.1 hp
      exact ⟨t, b, l, rfl, portOfByte_eq_some.1 ht, le, rfl⟩
    · cases h
  · cases h

theorem decodeMapWrite_some (h : decodeMapWrite ps = some r) :
    ∃ (t : Port) (b l : Byte) (sent : Value), ps = b :: l :: valueBytes sent ∧ b.toNat = t.val ∧ l.toNat ≤ 63 ∧
      (entryPresent sent = true → entryReservedClear sent = true) ∧ r = .mapWrite t l.toNat (normalEntry sent) := by
  unfold decodeMapWrite at h
  split at h
  · next b l e3 e2 e1 e0 =>
    split at h
    · next t page ht hp =>
      split at h
      · cases h
      · next clear =>
        cases h
        obtain ⟨rfl, le⟩ := pageOf_eq_some.1 hp
        refine ⟨t, b, l, _, by rw [valueBytes_value32], portOfByte_eq_some.1 ht, le, fun present => ?_, rfl⟩
        rw [present] at clear
        simpa using clear
    · cases h
  · cases h

theorem decodeFlush_some (h : decodeFlush ps = some r) :
    ∃ (t : Port) (b : Byte), ps = [b] ∧ b.toNat = t.val ∧ r = .flush t := by
  unfold decodeFlush at h
  split at h
  · next b =>
    obtain ⟨t, ht, rfl⟩ := Option.map_eq_some_iff.1 h
    exact ⟨t, b, rfl, portOfByte_eq_some.1 ht, rfl⟩
  · cases h

theorem decodeSettingRead_some (h : decodeSettingRead ps = some r) :
    ∃ (i : Item) (m : Port) (b : Byte), ps = [i.code, b] ∧ b.toNat = m.val ∧ (i.kind = .device → m = 0) ∧
      r = .settingRead i m := by
  unfold decodeSettingRead at h
  split at h
  · next c b =>
    split at h
    · cases h
    · next i hi =>
      obtain ⟨m, hm, rfl⟩ := Option.map_eq_some_iff.1 h
      obtain ⟨port, device⟩ := portOf_eq_some.1 hm
      exact ⟨i, m, b, by rw [code_of_itemOfCode hi], port, device, rfl⟩
  · cases h

/-- The value bytes, and the complement of CRC enforcement. -/
theorem decodeSettingWrite_some (h : decodeSettingWrite ps = some r) :
    ∃ (i : Item) (m : Port) (b : Byte) (value pair : List Byte) (ok : Bool), ps = i.code :: b :: (value ++ pair) ∧
      b.toNat = m.val ∧ (i.kind = .device → m = 0) ∧ value.length = i.len ∧ i.inRange (valueOf value) = true ∧
      (if i = .crcEnforcement then ∃ co, pair = [co] ∧ ok = (co == ~~~(valueOf value).setWidth 8) else pair = [] ∧ ok = true) ∧
      r = .settingWrite i m (valueOf value) ok := by
  unfold decodeSettingWrite at h
  split at h
  · next c b bs =>
    split at h
    · cases h
    · next i hi =>
      split at h
      · cases h
      · next m hm =>
        by_cases len : bs.length = i.writeLen
        · rw [if_neg (not_not_intro len)] at h
          split at h
          · cases h
          · next inRange =>
            cases h
            obtain ⟨port, device⟩ := portOf_eq_some.1 hm
            have enough := i.len_le_writeLen
            refine ⟨i, m, b, bs.take i.len, bs.drop i.len, _, ?_, port, device, ?_, by simpa using inRange, ?_, rfl⟩
            · rw [code_of_itemOfCode hi, List.take_append_drop]
            · rw [List.length_take]; omega
            · split
              · next crc =>
                subst crc
                obtain ⟨x, co, rfl⟩ : ∃ x co, bs = [x, co] := List.length_eq_two.1 len
                have byte : (valueOf [x]).setWidth 8 = x := by
                  have sent := itemValueBytes_valueOf .crcEnforcement (bs := [x]) rfl
                  rw [setWidth_eq_low _ (by omega)]
                  exact (List.cons.inj sent).1
                refine ⟨co, rfl, ?_⟩
                show ([co] == [~~~x]) = (co == ~~~(valueOf [x]).setWidth 8)
                rw [byte]
                simp
              · next other =>
                have none_left : bs.drop i.len = [] :=
                  List.drop_eq_nil_of_le (by rw [len, Item.writeLen_of_ne other])
                exact ⟨none_left, by rw [none_left]; rfl⟩
        · rw [if_pos len] at h; cases h
  · cases h

theorem decodeReset_some (h : decodeReset ps = some r) :
    ∃ (scope : ResetScope) (co : Byte), ps = [scopeByte scope, co] ∧ r = .reset scope (co == ~~~(scopeByte scope)) := by
  unfold decodeReset at h
  split at h
  · next sc co =>
    obtain ⟨scope, hs, rfl⟩ := Option.map_eq_some_iff.1 h
    have named : scopeByte scope = sc := by
      unfold scopeOf at hs
      split at hs
      · next warm => cases hs; exact warm.symm
      · obtain ⟨m, hm, rfl⟩ := Option.map_eq_some_iff.1 hs
        exact ofNat_byte (portOfByte_eq_some.1 hm).symm
    exact ⟨scope, co, by rw [named], by rw [named]⟩
  · cases h

end Inversions

/-! ### The decoder of each code -/

/-- A code that decodes is one of 9.4, and every code of 9.4 decodes. -/
theorem requestDecoder_eq_none_iff (op : Byte) : requestDecoder op = none ↔ op ∉ requestCodes := by
  constructor
  · intro h hm
    simp only [requestCodes, List.mem_cons, List.not_mem_nil, or_false] at hm
    rcases hm with rfl | rfl | rfl | rfl | rfl | rfl | rfl | rfl | rfl | rfl | rfl | rfl | rfl | rfl | rfl | rfl | rfl |
      rfl | rfl | rfl | rfl | rfl | rfl <;> cases h
  · intro h
    simp only [requestCodes, List.mem_cons, List.not_mem_nil, or_false, not_or] at h
    simp only [requestDecoder, opProbe, opStatus, opClear, opLoaded, opRead, opReadStamped, opStage, opPost, opArm, opDiscard,
      opGroupStatus, opCycle, opDescRead, opDescWrite, opGroupWrite, opMapRead, opMapWrite, opFlush, opSettingRead,
      opSettingWrite, opLogRead, opLogClear, opReset, h, if_false]

end Sys2Proof.Machine
end

section
/-! Step 3 of the request checks (R142): the length that a code calls for, the ranges of the fields, and the request taken. -/

namespace Sys2Proof.Machine

/-! ### What is taken is what was sent -/

/-- The parameter bytes that a code calls for; those of a STAGE or POST by its control byte, of a SETTING_WRITE by its item. -/
def paramLength (op : Byte) (ps : List Byte) : Nat :=
  if op ∈ [0x01, 0x02, 0x04, 0x23, 0x42, 0x43] then 0
  else if op ∈ [0x21, 0x22, 0x3A] then 1
  else if op ∈ [0x20, 0x30, 0x38, 0x40, 0x4F] then 2
  else if op ∈ [0x03, 0x10, 0x11, 0x32] then 3
  else if op ∈ [0x12, 0x13] then
    3 + (if (ps.getD 2 0).getLsbD 5 then 4 else 0) + 4 * ((ps.getD 2 0).toNat % 16 + 1)
  else if op = 0x31 then 14
  else if op = 0x39 then 6
  else
    match itemOfCode (ps.getD 0 0) with
    | some i => 2 + i.len + (if i = .crcEnforcement then 1 else 0)
    | none => 0

/-- The bytes that carry a request: its layout, an absent map entry as any absent one, a complement that does not match as any
that does not. -/
def Request.carriedBy (ps : List Byte) : Request → Prop
  | .mapWrite target page entry => ∃ sent : Value,
      ps = [BitVec.ofNat 8 target.val, BitVec.ofNat 8 page] ++ valueBytes sent ∧
      entry = if sent.getLsbD 31 then sent else 0
  | .settingWrite i m v false => ∃ co : Byte, co ≠ ~~~(v.setWidth 8) ∧
      ps = (Request.settingWrite i m v false).params.dropLast ++ [co]
  | .reset scope false => ∃ co : Byte,
      co ≠ ~~~(match scope with
        | .warm => (0x10 : Byte)
        | .port m => BitVec.ofNat 8 m.val) ∧ ps = (Request.reset scope false).params.dropLast ++ [co]
  | r => ps = r.params

/-- A frame that decodes to a request: its length, its code, and its bytes. -/
structure Decoded (op : Byte) (ps : List Byte) (r : Request) : Prop where
  length : ps.length = paramLength op ps
  op : r.op = op
  carried : r.carriedBy ps

namespace Decoded

variable {ps : List Byte} {r : Request}

theorem clear (h : decodeClear ps = some r) : Decoded opClear ps r := by
  obtain ⟨f, hi, lo, rfl, upper, upper', -, -, rfl⟩ := decodeClear_some h
  refine ⟨rfl, rfl, ?_⟩
  show _ = _ :: halfBytes _
  rw [setWidth_low f 6 (toNat_lt_of_upper (l := 2) (by omega) upper),
    setWidth_low (half hi lo) 11 (toNat_lt_of_upper (l := 5) (by omega) upper'), halfBytes_half]

theorem readRun {shape : RecordShape} {op : Byte} (h : decodeReadRun shape ps = some r)
    (len : ∀ qs, paramLength op qs = 3) (code : ∀ start down todo, (Request.run shape start down todo).op = op) :
    Decoded op ps r := by
  obtain ⟨hi, lo, c, k, rfl, hk, unmasked, rfl⟩ := decodeReadRun_some h
  obtain ⟨one, -⟩ := decodeControl_count hk
  refine ⟨(len _).symm, code _ _ _, ?_⟩
  have head : (List.replicate k.count (PointAccess.read k.prefer)).head? = some (.read k.prefer) := by
    rw [List.head?_replicate, if_neg (by omega)]
  have control : controlByte k.down (List.replicate k.count (.read k.prefer)) = c :=
    controlByte_of_decode hk (List.length_replicate) (by rw [head, unmasked]; rfl) (by rw [head]; rfl)
  show [hi, lo, c] = runParams _ _ _
  rw [runParams_reads _ _ _ one, control, halfBytes_half]
  rfl

/-- The mask and the values of a run, apart. -/
theorem masked_values {masked : Bool} {count : Nat} {ws : List Value} (h : ws.length = (if masked then 1 else 0) + count) :
    ∃ (mask : Option Value) (vs : List Value), mask.isSome = masked ∧ ws = mask.toList ++ vs ∧ vs.length = count := by
  cases masked with
  | false => exact ⟨none, ws, rfl, rfl, by simpa using h⟩
  | true =>
    cases ws with
    | nil => simp only [List.length_nil, if_true] at h; omega
    | cons w ws => exact ⟨some w, ws, rfl, rfl, by simp only [List.length_cons, if_true] at h; omega⟩

theorem writeRun {stage : Bool} {op : Byte} (h : decodeWriteRun stage ps = some r)
    (len : ∀ qs : List Byte, paramLength op qs =
      3 + (if (qs.getD 2 0).getLsbD 5 then 4 else 0) + 4 * ((qs.getD 2 0).toNat % 16 + 1))
    (code : ∀ start down mask v vs,
      (Request.run .status start down (PointAccess.write stage mask v :: vs)).op = op) : Decoded op ps r := by
  obtain ⟨hi, lo, c, rest, k, rfl, hk, plain, hl, rfl⟩ := decodeWriteRun_some h
  obtain ⟨one, -⟩ := decodeControl_count hk
  have fields : c.getLsbD 5 = k.masked ∧ c.toNat % 16 + 1 = k.count := by
    unfold decodeControl at hk
    split at hk
    · cases hk
    · cases hk; exact ⟨rfl, by simp⟩
  have fours : (values32 rest).length = (if k.masked then 1 else 0) + k.count := by
    rw [values32_length, hl]
    cases k.masked with
    | false => simp
    | true => simp only [if_true]; omega
  obtain ⟨mask, vs, masked, split, count⟩ := masked_values fours
  obtain ⟨v, vs, rfl⟩ := List.exists_cons_of_length_pos (count ▸ one)
  rw [split, ← masked, writeAccesses_eq]
  have control : controlByte k.down ((v :: vs).map (PointAccess.write stage mask)) = c :=
    controlByte_of_decode hk (by rw [List.length_map, count]) (by simp [masked]) (by simp [plain])
  have sent : (mask.toList ++ v :: vs).flatMap valueBytes = rest := by
    rw [← split, flatMap_values32 rest (by rw [hl]; cases k.masked <;> simp)]
  refine ⟨?_, code _ _ _ _ _, ?_⟩
  · rw [len]
    show rest.length + 1 + 1 + 1 = 3 + (if c.getLsbD 5 then 4 else 0) + 4 * (c.toNat % 16 + 1)
    rw [fields.1, fields.2, hl]
    omega
  · show hi :: lo :: c :: rest = runParams _ _ _
    rw [runParams_writes _ _ _ _ (by simp), control, sent, halfBytes_half]
    rfl

theorem arm (h : decodeArm ps = some r) : Decoded opArm ps r := by
  obtain ⟨g, b, now, rfl, group, rfl⟩ := decodeArm_some h
  refine ⟨rfl, rfl, ?_⟩
  show _ = [BitVec.ofNat 8 g.num, _]
  rw [ofNat_byte group]

theorem group {mk : GroupId → Request} {op : Byte} (h : decodeGroup mk ps = some r) (len : ∀ qs, paramLength op qs = 1)
    (code : ∀ g, (mk g).op = op) (layout : ∀ g qs, (mk g).carriedBy qs ↔ qs = [BitVec.ofNat 8 g.num]) : Decoded op ps r := by
  obtain ⟨g, b, rfl, group, rfl⟩ := decodeGroup_some h
  exact ⟨(len _).symm, code g, (layout g _).2 (by rw [ofNat_byte group])⟩

theorem groupWrite (h : decodeGroupWrite ps = some r) : Decoded opGroupWrite ps r := by
  obtain ⟨g, b, a, mode, rfl, group, upper, rfl⟩ := decodeGroupWrite_some h
  refine ⟨rfl, rfl, ?_⟩
  show _ = [BitVec.ofNat 8 g.num, _, _]
  rw [ofNat_byte group, setWidth_low a 4 (toNat_lt_of_upper (l := 4) (by omega) upper)]
  cases mode <;> rfl

theorem descRead (h : decodeDescRead ps = some r) : Decoded opDescRead ps r := by
  obtain ⟨hi, lo, rfl, -, rfl⟩ := decodeDescRead_some h
  exact ⟨rfl, rfl, (natBytes2_bytesNat hi lo).symm⟩

theorem descWrite (h : decodeDescWrite ps = some r) : Decoded opDescWrite ps r := by
  obtain ⟨hi, lo, desc, low, high, d, rfl, -, -, rfl⟩ := decodeDescWrite_some h
  refine ⟨rfl, rfl, ?_⟩
  show _ = natBytes2 _ ++ valueBytes desc ++ valueBytes low ++ valueBytes high
  rw [natBytes2_bytesNat]
  rfl

theorem mapRead (h : decodeMapRead ps = some r) : Decoded opMapRead ps r := by
  obtain ⟨t, b, l, rfl, target, -, rfl⟩ := decodeMapRead_some h
  refine ⟨rfl, rfl, ?_⟩
  show _ = [BitVec.ofNat 8 t.val, BitVec.ofNat 8 l.toNat]
  rw [ofNat_byte target.symm, ofNat_byte rfl]

theorem mapWrite (h : decodeMapWrite ps = some r) : Decoded opMapWrite ps r := by
  obtain ⟨t, b, l, sent, rfl, target, -, -, rfl⟩ := decodeMapWrite_some h
  refine ⟨rfl, rfl, sent, ?_, rfl⟩
  rw [ofNat_byte target.symm, ofNat_byte rfl]
  rfl

theorem flush (h : decodeFlush ps = some r) : Decoded opFlush ps r := by
  obtain ⟨t, b, rfl, target, rfl⟩ := decodeFlush_some h
  refine ⟨rfl, rfl, ?_⟩
  show _ = [BitVec.ofNat 8 t.val]
  rw [ofNat_byte target.symm]

theorem settingRead (h : decodeSettingRead ps = some r) : Decoded opSettingRead ps r := by
  obtain ⟨i, m, b, rfl, port, -, rfl⟩ := decodeSettingRead_some h
  refine ⟨rfl, rfl, ?_⟩
  show _ = [i.code, BitVec.ofNat 8 m.val]
  rw [ofNat_byte port.symm]

theorem settingWrite (h : decodeSettingWrite ps = some r) : Decoded opSettingWrite ps r := by
  obtain ⟨i, m, b, value, pair, ok, rfl, port, -, len, -, complement, rfl⟩ := decodeSettingWrite_some h
  have counted : (i.code :: b :: (value ++ pair)).length = 2 + i.len + (if i = .crcEnforcement then 1 else 0) := by
    have extra : pair.length = if i = .crcEnforcement then 1 else 0 := by
      split
      · next crc => rw [if_pos crc] at complement; obtain ⟨co, rfl, -⟩ := complement; rfl
      · next other => rw [if_neg other] at complement; rw [complement.1]; rfl
    rw [List.length_cons, List.length_cons, List.length_append, len, extra]
    omega
  refine ⟨?_, rfl, ?_⟩
  · show _ = match itemOfCode i.code with
      | some i => 2 + i.len + (if i = Item.crcEnforcement then 1 else 0)
      | none => 0
    rw [itemOfCode_code]
    exact counted
  · have bytes := itemValueBytes_valueOf i len
    have port := ofNat_byte port.symm
    by_cases crc : i = .crcEnforcement
    · rw [if_pos crc] at complement
      obtain ⟨co, rfl, rfl⟩ := complement
      have layout (ok : Bool) : (Request.settingWrite i m (valueOf value) ok).params =
          i.code :: b :: (value ++ [pairByte ((valueOf value).setWidth 8) ok]) := by
        simp only [Request.params, if_pos crc, bytes, port, List.cons_append]
      cases hco : co == ~~~(valueOf value).setWidth 8 with
      | true =>
        show _ = Request.params _
        rw [layout, beq_iff_eq.1 hco]
        rfl
      | false =>
        refine ⟨co, beq_eq_false_iff_ne.1 hco, ?_⟩
        have kept (x : Byte) : (i.code :: b :: (value ++ [x])).dropLast = i.code :: b :: value :=
          (List.dropLast_concat : (i.code :: b :: value ++ [x]).dropLast = _)
        rw [layout, kept]
        rfl
    · rw [if_neg crc] at complement
      obtain ⟨rfl, rfl⟩ := complement
      show _ = i.code :: BitVec.ofNat 8 m.val :: itemValueBytes i (valueOf value) ++ if i = .crcEnforcement then _ else []
      rw [if_neg crc, bytes, port]
      rfl

theorem reset (h : decodeReset ps = some r) : Decoded opReset ps r := by
  obtain ⟨scope, co, rfl, rfl⟩ := decodeReset_some h
  refine ⟨rfl, rfl, ?_⟩
  cases hco : co == ~~~(scopeByte scope) with
  | true =>
    show _ = [scopeByte scope, pairByte (scopeByte scope) true]
    rw [beq_iff_eq.1 hco]
    rfl
  | false =>
    refine ⟨co, ?_, rfl⟩
    have differs := beq_eq_false_iff_ne.1 hco
    cases scope <;> exact differs

/-- Every frame that a decoder takes. -/
theorem of_decoder {op : Byte} {decode : List Byte → Option Request} (hd : requestDecoder op = some decode)
    (h : decode ps = some r) : Decoded op ps r := by
  have listed : op ∈ requestCodes := by
    by_contra hn
    rw [(requestDecoder_eq_none_iff op).2 hn] at hd
    cases hd
  have plain {op : Byte} {q : Request} (hq : noParams q ps = some r) (len : paramLength op [] = 0) (code : q.op = op)
      (layout : q.carriedBy []) : Decoded op ps r := by
    obtain ⟨rfl, rfl⟩ := noParams_some hq
    exact ⟨len.symm, code, layout⟩
  simp only [requestCodes, List.mem_cons, List.not_mem_nil, or_false] at listed
  rcases listed with rfl | rfl | rfl | rfl | rfl | rfl | rfl | rfl | rfl | rfl | rfl | rfl | rfl | rfl | rfl | rfl | rfl |
    rfl | rfl | rfl | rfl | rfl | rfl <;> cases hd
  · exact plain h rfl rfl rfl
  · exact plain h rfl rfl rfl
  · exact clear h
  · exact plain h rfl rfl rfl
  · exact readRun h (fun _ => rfl) fun _ _ _ => rfl
  · exact readRun h (fun _ => rfl) fun _ _ _ => rfl
  · exact writeRun h (fun _ => rfl) fun _ _ _ _ _ => rfl
  · exact writeRun h (fun _ => rfl) fun _ _ _ _ _ => rfl
  · exact arm h
  · exact group h (fun _ => rfl) (fun _ => rfl) fun _ _ => Iff.rfl
  · exact group h (fun _ => rfl) (fun _ => rfl) fun _ _ => Iff.rfl
  · exact plain h rfl rfl rfl
  · exact descRead h
  · exact descWrite h
  · exact groupWrite h
  · exact mapRead h
  · exact mapWrite h
  · exact flush h
  · exact settingRead h
  · exact settingWrite h
  · exact plain h rfl rfl rfl
  · exact plain h rfl rfl rfl
  · exact reset h

end Decoded

end Sys2Proof.Machine
end

section
/-! The ranges of the fields as sent (R142, R144, R170, R171, R178). -/

namespace Sys2Proof.Machine

theorem GroupId.num_bounds (g : GroupId) : 1 ≤ g.num ∧ g.num ≤ 63 := by
  have := g.isLt
  simp only [GroupId.num]
  omega

/-! ### Control bytes and entries -/

theorem toNat_lt_of_bit7 : ∀ c : Byte, c.getLsbD 7 = false → c.toNat < 128 := by decide

theorem toNat_lt_of_bits67 : ∀ c : Byte, c.getLsbD 7 = false → c.getLsbD 6 = false → c.toNat < 64 := by decide

theorem bits_of_decodeControl {c : Byte} {k : RunControl} (h : decodeControl c = some k) :
    c.getLsbD 7 = false ∧ c.getLsbD 5 = k.masked ∧ c.getLsbD 6 = k.prefer := by
  unfold decodeControl at h
  split at h
  · cases h
  · next seven => cases h; exact ⟨by simpa using seven, rfl, rfl⟩

theorem getLsbD_half_low (hi lo : Byte) {k : Nat} (h : k < 8) : (half hi lo).getLsbD k = lo.getLsbD k := by
  rw [half, BitVec.getLsbD_append, if_pos h]

theorem toNat_form_le : ∀ now : Bool, (if now then formNow else formNext).toNat ≤ 1 := by decide

theorem toNat_modeCode_le (mode : GroupMode) : (modeCode mode).toNat ≤ 1 := by cases mode <;> decide

/-- Bit 31 as a bound (13.4). -/
theorem entryPresent_iff (v : Value) : entryPresent v = true ↔ 0x80000000 ≤ v.toNat := by
  have := v.isLt
  rw [entryPresent, BitVec.getLsbD, Nat.testBit_eq_decide_div_mod_eq, decide_eq_true_eq]
  omega

theorem toNat_lt_of_reservedClear {v : Value} (h : entryReservedClear v = true) (present : 0x80000000 ≤ v.toNat) :
    v.toNat < 0x80000800 := by
  have lt := v.isLt
  have zero : v.toNat / 2048 % 1048576 = 0 := by
    have := congrArg BitVec.toNat (beq_iff_eq.1 h)
    rwa [BitVec.extractLsb'_toNat, Nat.shiftRight_eq_div_pow] at this
  omega

/-! ### Setting items (11.2) -/

/-- The code of a level. -/
theorem Item.toNat_code_level (k : Fin 11) : (Item.level k).code.toNat = 0x30 + k.val := by revert k; decide

/-- The codes of the device items, and of the items of a port. -/
theorem Item.code_by_kind (i : Item) :
    (i.kind = .device → i.code.toNat ∈ [0x01, 0x02, 0x03, 0x04, 0x05, 0x06, 0x07]) ∧
      (i.kind ≠ .device → i.code.toNat ∈ [0x10, 0x11, 0x12, 0x13, 0x14, 0x15, 0x16, 0x20, 0x21, 0x22] ∨
        (0x30 ≤ i.code.toNat ∧ i.code.toNat ≤ 0x3A)) := by
  cases i with
  | level k =>
    rw [Item.toNat_code_level]
    exact ⟨nofun, fun _ => .inr (by omega)⟩
  | _ => decide

theorem Item.len_by_code (i : Item) :
    (if i.code.toNat ∈ [0x03, 0x04, 0x06, 0x07] then 2 else if i.code.toNat = 0x20 then 8 else 1) = i.len := by
  cases i with
  | level k => revert k; decide
  | _ => rfl

/-- The ranges of the items by their codes. -/
theorem Item.range_by_code {i : Item} {v : BitVec 64} (h : i.inRange v = true) :
    let c := i.code.toNat
    let x := v.toNat
    (c ∈ [0x01, 0x15, 0x16, 0x22] → x ≤ 1) ∧ (c = 0x02 → x ∈ [1, 2, 4, 8]) ∧ (c = 0x05 → x ≤ 3) ∧
      (c ∈ [0x06, 0x21] → 1 ≤ x) ∧ (c = 0x07 → x ≤ 511) ∧ (c = 0x10 → x ≤ 64) ∧ (c = 0x11 → x ≤ 2) ∧
      (c = 0x12 → 1 ≤ x ∧ x ≤ 2) ∧ (c = 0x14 → 12 ≤ x) ∧ (c = 0x20 → x % 2 = 0) ∧ (0x30 ≤ c → x ≤ 7) := by
  intro c x
  cases i with
  | level k =>
    have code : c = 0x30 + k.val := Item.toNat_code_level k
    have le : x ≤ 7 := of_decide_eq_true h
    rw [code]
    simp only [List.mem_cons, List.not_mem_nil, or_false]
    omega
  | watchSet =>
    have even : x % 2 = 0 := by
      simp only [Item.inRange, BitVec.getLsbD, Nat.testBit_zero, Bool.not_eq_true', decide_eq_false_iff_not] at h
      show v.toNat % 2 = 0
      omega
    simp [c, Item.code, even]
  | scrubGuarantee =>
    simp only [Item.inRange, Bool.or_eq_true, beq_iff_eq] at h
    have values : x ∈ [1, 2, 4, 8] := by rcases h with ((rfl | rfl) | rfl) | rfl <;> decide
    simpa [c, Item.code] using values
  | stopBits =>
    simp only [Item.inRange, Bool.or_eq_true, beq_iff_eq] at h
    have values : 1 ≤ x ∧ x ≤ 2 := by rcases h with rfl | rfl <;> decide
    simpa [c, Item.code] using values
  | scrubInterval | scrubMask | rateDivisor => simp [c, Item.code]
  | _ =>
    have range := of_decide_eq_true h
    simpa [c, Item.code] using range

theorem Request.carriedBy_iff (ps : List Byte) (r : Request) :
    r.carriedBy ps ↔
      match r with
      | .mapWrite target page entry => ∃ sent : Value,
          ps = [BitVec.ofNat 8 target.val, BitVec.ofNat 8 page] ++ valueBytes sent ∧
          entry = if sent.getLsbD 31 then sent else 0
      | .settingWrite _ _ v false => ∃ co : Byte, co ≠ ~~~(v.setWidth 8) ∧ ps = r.params.dropLast ++ [co]
      | .reset scope false => ∃ co : Byte,
          co ≠ ~~~(match scope with
            | .warm => (0x10 : Byte)
            | .port m => BitVec.ofNat 8 m.val) ∧ ps = r.params.dropLast ++ [co]
      | _ => ps = r.params := by
  cases r with
  | settingWrite i m v ok => cases ok <;> rfl
  | reset scope ok => cases ok <;> rfl
  | _ => rfl

/-- Settles O21: the bytes that each decoder takes. -/
theorem parameterLengthsAreExact : Obligations.ParameterLengthsAreExact := by
  refine ⟨fun op decode ps r hd h => (Decoded.of_decoder hd h).length, ?ranges, ?layout⟩
  case layout =>
    intro op decode ps r hd h
    refine ⟨decode_wf hd h, (Decoded.of_decoder hd h).op, ?_⟩
    exact (r.carriedBy_iff ps).1 (Decoded.of_decoder hd h).carried
  intro op decode ps r hd h field number group item
  have in_group {g : GroupId} {b : Byte} (e : g.num = b.toNat) : 1 ≤ b.toNat ∧ b.toNat ≤ 63 := e ▸ GroupId.num_bounds g
  have in_ports {m : Port} {b : Byte} (e : b.toNat = m.val) : b.toNat ≤ 3 := by omega
  have in_items {i : Item} {m : Port} {b : Byte} {rest : List Byte} (e : b.toNat = m.val) (device : i.kind = .device → m = 0)
      (hps : ps = i.code :: b :: rest) : item (field 1) := by
    subst hps
    obtain ⟨low, high⟩ := i.code_by_kind
    by_cases hk : i.kind = .device
    · exact .inl ⟨low hk, by show b.toNat = 0; rw [e, device hk]; rfl⟩
    · exact .inr ⟨high hk, in_ports e⟩
  have in_codes {c d : Byte} (hop : op ∈ [c, d]) : op = c ∨ op = d := by simpa using hop
  refine ⟨fun e => ?clear, fun e => ?readRun, fun e => ?writeRun, fun e => ?arm, fun e => ?group, fun e => ?groupWrite,
    fun e => ?point, fun e => ?desc, fun e => ?map, fun e low => ?entry, fun e => ?flush, fun e => ?item, fun e => ?value,
    fun e => ?reset⟩
  case clear =>
    subst e; cases hd
    obtain ⟨f, hi, lo, rfl, upper, upper', two, four, -⟩ := decodeClear_some h
    rw [getLsbD_half_low hi lo (by omega)] at two four
    refine ⟨toNat_lt_of_upper (k := 6) (l := 2) (by omega) upper, ?_, two, four⟩
    show bytesNat [hi, lo] < 2048
    rw [← toNat_half]
    exact toNat_lt_of_upper (k := 11) (l := 5) (by omega) upper'
  case readRun =>
    have taken {shape : RecordShape} (h : decodeReadRun shape ps = some r) :
        field 2 < 128 ∧ (ps.getD 2 0).getLsbD 5 = false := by
      obtain ⟨hi, lo, c, k, rfl, hk, unmasked, -⟩ := decodeReadRun_some h
      obtain ⟨seven, masked, -⟩ := bits_of_decodeControl hk
      exact ⟨toNat_lt_of_bit7 c seven, masked.trans unmasked⟩
    rcases in_codes e with rfl | rfl <;> cases hd <;> exact taken h
  case writeRun =>
    have taken {stage : Bool} (h : decodeWriteRun stage ps = some r) : field 2 < 64 := by
      obtain ⟨hi, lo, c, rest, k, rfl, hk, plain, -⟩ := decodeWriteRun_some h
      obtain ⟨seven, -, prefer⟩ := bits_of_decodeControl hk
      exact toNat_lt_of_bits67 c seven (prefer.trans plain)
    rcases in_codes e with rfl | rfl <;> cases hd <;> exact taken h
  case arm =>
    subst e; cases hd
    obtain ⟨g, b, now, rfl, num, -⟩ := decodeArm_some h
    exact ⟨in_group num, toNat_form_le now⟩
  case group =>
    have taken {mk : GroupId → Request} (h : decodeGroup mk ps = some r) : group := by
      obtain ⟨g, b, rfl, num, -⟩ := decodeGroup_some h
      exact in_group num
    rcases in_codes e with rfl | rfl <;> cases hd <;> exact taken h
  case groupWrite =>
    subst e; cases hd
    obtain ⟨g, b, a, mode, rfl, num, upper, -⟩ := decodeGroupWrite_some h
    exact ⟨in_group num, toNat_modeCode_le mode, toNat_lt_of_upper (k := 4) (l := 4) (by omega) upper⟩
  case point =>
    rcases in_codes e with rfl | rfl <;> cases hd
    · obtain ⟨hi, lo, rfl, le, -⟩ := decodeDescRead_some h
      exact le
    · obtain ⟨hi, lo, desc, low, high, d, rfl, le, -⟩ := decodeDescWrite_some h
      exact le
  case desc =>
    subst e; cases hd
    obtain ⟨hi, lo, desc, low, high, d, rfl, -, hdesc, -⟩ := decodeDescWrite_some h
    refine ⟨d, ?_⟩
    show decodeDesc (BitVec.ofNat 32 (bytesNat (valueBytes desc))) = some d
    rw [bytesNat_valueBytes, BitVec.ofNat_toNat, BitVec.setWidth_eq, hdesc]
  case map =>
    rcases in_codes e with rfl | rfl <;> cases hd
    · obtain ⟨t, b, l, rfl, target, page, -⟩ := decodeMapRead_some h
      exact ⟨in_ports target, page⟩
    · obtain ⟨t, b, l, sent, rfl, target, page, -⟩ := decodeMapWrite_some h
      exact ⟨in_ports target, page⟩
  case entry =>
    subst e; cases hd
    obtain ⟨t, b, l, sent, rfl, -, -, clear, -⟩ := decodeMapWrite_some h
    have spelled : number ((b :: l :: valueBytes sent).drop 2) = sent.toNat := bytesNat_valueBytes sent
    rw [spelled] at low ⊢
    exact toNat_lt_of_reservedClear (clear ((entryPresent_iff sent).2 low)) low
  case flush =>
    subst e; cases hd
    obtain ⟨t, b, rfl, target, -⟩ := decodeFlush_some h
    exact in_ports target
  case item =>
    rcases in_codes e with rfl | rfl <;> cases hd
    · obtain ⟨i, m, b, hps, port, device, -⟩ := decodeSettingRead_some h
      exact in_items port device hps
    · obtain ⟨i, m, b, value, pair, ok, hps, port, device, -⟩ := decodeSettingWrite_some h
      exact in_items port device hps
  case value =>
    subst e; cases hd
    obtain ⟨i, m, b, value, pair, ok, rfl, -, -, len, inRange, -⟩ := decodeSettingWrite_some h
    have spelled : number (((i.code :: b :: (value ++ pair)).drop 2).take
        (if field 0 ∈ [0x03, 0x04, 0x06, 0x07] then 2 else if field 0 = 0x20 then 8 else 1)) = (valueOf value).toNat := by
      have count : (if field 0 ∈ [0x03, 0x04, 0x06, 0x07] then 2 else if field 0 = 0x20 then 8 else 1) = i.len :=
        i.len_by_code
      rw [count, toNat_valueOf (len ▸ i.len_le)]
      exact congrArg bytesNat (List.take_left' len)
    intro c x
    have hx : x = (valueOf value).toNat := spelled
    rw [hx]
    exact Item.range_by_code inRange
  case reset =>
    subst e; cases hd
    obtain ⟨scope, co, rfl, -⟩ := decodeReset_some h
    cases scope with
    | warm => exact .inr rfl
    | port m =>
      refine .inl ?_
      show (BitVec.ofNat 8 m.val : Byte).toNat ≤ 3
      rw [toNat_ofNat_byte (by omega)]
      omega

end Sys2Proof.Machine
end

section
/-! A request taken in the event of its frame (R139): the checks in their order (R141), and the rows of the requests that are
answered in that event. -/

namespace Sys2Proof.Machine

/-! ### The port that takes a frame -/

theorem PortState.queue_setBuf (p : PortState) (k : BufId) (b : Buffer) : (p.setBuf k b).queue = p.queue := by
  cases k <;> rfl

/-- The taking of a frame that finds the queue empty leaves it empty. -/
theorem State.takeHead_enqueued {s : State} {n : Port} {k : BufId} (empty : (s.port n).queue = []) (f : List Byte) :
    (s.setPort n { s.port n with rx := .looking, asm := .hunt, gapTimer := none, queue := (s.port n).queue ++ [f] }).takeHead
      n k [] = s.taking n k := by
  rw [State.takeHead, State.taking, State.updPort, State.port_setPort_self, State.setPort_setPort, State.updPort]
  congr 1
  generalize s.port n = p at empty
  obtain ⟨_, _, _, _, _, _, _, _, _, _, _, _⟩ := p
  cases empty
  cases k <;> rfl

theorem State.port_taking (s : State) (n : Port) (k : BufId) :
    (s.taking n k).port n = { (s.port n).setBuf k .reserved with rx := .looking, asm := .hunt, gapTimer := none } :=
  State.port_updPort_self _ _ _

/-- Of port n only its buffers and its receiver, assembler and gap timer change. -/
theorem State.port_taking_frame (s : State) (n : Port) (k : BufId) :
    ∃ x y, (s.taking n k).port n =
      { s.port n with buf0 := x, buf1 := y, rx := .looking, asm := .hunt, gapTimer := none } := by
  rw [State.port_taking]
  cases k <;> exact ⟨_, _, rfl⟩

theorem State.port_taking_of_ne (s : State) {n m : Port} (k : BufId) (h : m ≠ n) : (s.taking n k).port m = s.port m :=
  State.port_updPort_of_ne _ _ _ _ h.symm

theorem State.queue_taking {s : State} {n : Port} (empty : (s.port n).queue = []) (k : BufId) :
    ((s.taking n k).port n).queue = [] := by
  rw [State.port_taking]
  exact (PortState.queue_setBuf _ _ _).trans empty

theorem State.supervisor_taking (s : State) (n : Port) (k : BufId) :
    ((s.taking n k).port n).supervisor = (s.port n).supervisor := by
  obtain ⟨x, y, e⟩ := s.port_taking_frame n k
  rw [e]

/-! ### The request checks -/

/-- The request checks read the part's readiness and the sending port's role (R141). -/
theorem State.checkRequest_eq (s : State) (n : Port) (op : Byte) (ps : List Byte) :
    s.checkRequest n op ps =
      if s.ready = false then .error .notReady
      else
        match requestDecoder op with
        | none => .error .badOp
        | some decode =>
          match decode ps with
          | none => .error .badParam
          | some r => if roleAllows (s.port n).supervisor n r then .ok r else .error .role := by
  unfold State.checkRequest
  cases s.ready <;> rfl

/-- A frame is carried out, or refused by a check. -/
theorem State.runFrame_eq (s : State) (n : Port) (tag op : Byte) (ps : List Byte) :
    s.runFrame n (tag :: op :: ps) =
      if s.ready = false then s.respond n tag .notReady []
      else
        match requestDecoder op with
        | none => s.respond n tag .badOp []
        | some decode =>
          match decode ps with
          | none => s.respond n tag .badParam []
          | some r =>
            if roleAllows (s.port n).supervisor n r then s.runRequest n tag r else s.respond n tag .role [] := by
  simp only [State.runFrame, State.checkRequest_eq]
  cases s.ready with
  | false => rfl
  | true =>
    simp only [Bool.true_eq_false, if_false]
    cases requestDecoder op with
    | none => rfl
    | some decode =>
      simp only
      cases decode ps with
      | none => rfl
      | some r =>
        simp only
        cases roleAllows (s.port n).supervisor n r <;> rfl

/-- A request row that an IDLE engine takes at once. -/
theorem exec_of_taken {c : Instr} {n : Port} {tag op : Byte} {ps : List Byte} {s : State} {k : BufId}
    (hf : frameOf c = some (n, tag :: op :: ps)) (len : ps.length + 2 ≤ 80) (hl : s.listens n = true)
    (idle : (s.port n).ce = .idle) (empty : (s.port n).queue = []) (free : (s.port n).freeBuf = some k) :
    exec c s = .next ((s.taking n k).runFrame n (tag :: op :: ps)) := by
  have room : (s.port n).queue.length ≤ 3 := by rw [empty]; exact Nat.zero_le _
  rw [exec_of_listening hf len hl, State.goodFrame_eq, PortState.enqueue_of_room
    (p := { s.port n with rx := .looking, asm := .hunt, gapTimer := none }) room]
  have port := State.port_setPort_self s n
    { s.port n with rx := .looking, asm := .hunt, gapTimer := none, queue := (s.port n).queue ++ [tag :: op :: ps] }
  rw [State.serve_of_take (k := k) (f := tag :: op :: ps) (rest := []) (by rw [port]; exact idle)
    (by rw [port, empty]; rfl) (by rw [port]; exact free), State.takeHead_enqueued empty]
  refine congrArg _ (State.serve_of_stay (.inr (.inl ?_)))
  obtain e | e := queue_runFrame (s.taking n k) n (tag :: op :: ps) n <;> rw [e]
  exact State.queue_taking empty k

/-- Settles O20: the row is taken at once, and its frame checked. -/
theorem requestChecksInOrder : Obligations.RequestChecksInOrder := by
  refine ⟨fun c n tag op ps s k hf len hl idle empty free => ?_, requestDecoder_eq_none_iff,
    fun n tag ps => ⟨rfl, fun g => ⟨rfl, rfl⟩, fun m i => ?_, rfl, fun scope => rfl, fun op => rfl⟩,
    fun n tag op ps s k wf takes => ?_⟩
  · rw [exec_of_taken hf len hl idle empty free, State.runFrame_eq, State.supervisor_taking]
    rfl
  · cases i <;> rfl
  · obtain ⟨hl, ready, idle, empty, free⟩ := takes
    obtain ⟨unlisted, len⟩ := Bool.and_eq_true_iff.1 wf
    have unknown : requestDecoder op = none := (requestDecoder_eq_none_iff op).2 (by simpa using unlisted)
    have notReady : ¬(s.taking n k).ready = false := fun h => absurd (ready.symm.trans h) Bool.true_eq_false.mp
    rw [exec_of_taken rfl (of_decide_eq_true len) hl idle empty free, State.runFrame_eq, if_neg notReady, unknown]

/-! ### The requests that decode -/

/-- Every request fits a frame (R124). -/
theorem paramLength_le (op : Byte) (ps : List Byte) : paramLength op ps + 2 ≤ 80 := by
  unfold paramLength
  split
  · omega
  split
  · omega
  split
  · omega
  split
  · omega
  split
  · have : (if (ps.getD 2 0).getLsbD 5 then 4 else 0) ≤ 4 := by split <;> omega
    omega
  split
  · omega
  split
  · omega
  split
  · next i _ =>
    have := i.len_le
    have : (if i = .crcEnforcement then 1 else 0) ≤ 1 := by split <;> omega
    omega
  · omega

/-- A row whose frame decodes to r: the role check, then the request. -/
theorem exec_of_decoded {c : Instr} {n : Port} {tag op : Byte} {ps : List Byte} {s : State} {k : BufId}
    {decode : List Byte → Option Request} {r : Request} (takes : s.takes n k)
    (hf : frameOf c = some (n, tag :: op :: ps)) (hd : requestDecoder op = some decode) (h : decode ps = some r) :
    exec c s = .next (if roleAllows (s.port n).supervisor n r then (s.taking n k).runRequest n tag r
      else (s.taking n k).respond n tag .role []) := by
  obtain ⟨hl, ready, idle, empty, free⟩ := takes
  have notReady : ¬(s.taking n k).ready = false := fun h => absurd (ready.symm.trans h) Bool.true_eq_false.mp
  have len : ps.length + 2 ≤ 80 := (Decoded.of_decoder hd h).length ▸ paramLength_le op ps
  rw [exec_of_taken hf len hl idle empty free, State.runFrame_eq, if_neg notReady, hd, State.supervisor_taking]
  simp only [h]

theorem exec_of_decoded_allowed {c : Instr} {n : Port} {tag op : Byte} {ps : List Byte} {s : State} {k : BufId}
    {decode : List Byte → Option Request} {r : Request} (takes : s.takes n k)
    (hf : frameOf c = some (n, tag :: op :: ps)) (hd : requestDecoder op = some decode) (h : decode ps = some r)
    (allowed : roleAllows (s.port n).supervisor n r = true) :
    exec c s = .next ((s.taking n k).runRequest n tag r) := by
  rw [exec_of_decoded takes hf hd h, if_pos allowed]

/-- A row whose frame carries a request that the role check allows. -/
theorem exec_of_allowed {c : Instr} {n : Port} {tag : Byte} {s : State} {k : BufId} {r : Request} (takes : s.takes n k)
    (hf : frameOf c = some (n, tag :: r.op :: r.params)) (wf : r.wf = true)
    (allowed : roleAllows (s.port n).supervisor n r = true) :
    exec c s = .next ((s.taking n k).runRequest n tag r) := by
  obtain ⟨decode, hd, h⟩ := requestLayoutsRoundTrip r wf
  exact exec_of_decoded_allowed takes hf hd h allowed

end Sys2Proof.Machine
end

section
/-! The rows of the requests that are answered in the event of their frame (R64, R87 to R91, R96, R119, R120, R149, R150). -/

namespace Sys2Proof.Machine

/-! ### PROBE, STATUS, CLEAR and LOADED -/

theorem flagByte_eq (b : Bool) : flagByte b = if b then 1 else 0 := by cases b <;> rfl

/-- The groups of a loaded set by their numbers. -/
theorem loadedGroups_num (v : BitVec 64) :
    (loadedGroups v).map GroupId.num = (List.range 64).filter (fun g => decide (1 ≤ g) && v.getLsbD g) := by
  have numbers : allGroups.map GroupId.num = (List.range 64).filter (fun g => decide (1 ≤ g)) := by decide
  calc (loadedGroups v).map GroupId.num
      = (allGroups.map GroupId.num).filter v.getLsbD := (List.filter_map ..).symm
    _ = ((List.range 64).filter (fun g => decide (1 ≤ g))).filter v.getLsbD := by rw [numbers]
    _ = (List.range 64).filter (fun g => decide (1 ≤ g) && v.getLsbD g) := by
      rw [List.filter_filter]
      exact List.filter_congr fun g _ => Bool.and_comm _ _

theorem length_loadedGroups (v : BitVec 64) :
    (loadedGroups v).length = (List.range 64).countP (fun g => decide (1 ≤ g) && v.getLsbD g) := by
  rw [List.countP_eq_length_filter, ← loadedGroups_num, List.length_map]

/-- Settles O25: the bodies, field by field. -/
theorem probeAndStatusAnswers : Obligations.ProbeAndStatusAnswers := by
  intro s n k tag takes
  obtain ⟨x, y, port⟩ := s.port_taking_frame n k
  refine ⟨?_, ?_⟩
  · rw [exec_of_allowed (r := .probe) takes rfl rfl rfl]
    show Host.Outcome.next (State.respond _ n tag .ok (State.probeBody _ n)) = _
    rw [State.probeBody, port, flagByte_eq]
    rfl
  · rw [exec_of_allowed (r := .status) takes rfl rfl rfl]
    show Host.Outcome.next (State.respond _ n tag .ok (State.statusBody _ n)) = _
    have record : (s.taking n k).startRecord = [if s.startCause = .cold then 0 else 1] ++
        (match s.torn with
          | none => [0, 0, 0, 0, 0]
          | some x => [BitVec.ofNat 8 (x.group.val + 1)] ++ natBytes2 x.transferred ++ natBytes2 x.untransferred) := by
      unfold State.startRecord
      show (match s.startCause with | .cold => (0 : Byte) | .warm => 1) :: (match s.torn with
        | none => (0 : Byte) :: natBytes2 0 ++ natBytes2 0
        | some t => BitVec.ofNat 8 t.group.num :: natBytes2 t.transferred ++ natBytes2 t.untransferred) = _
      cases s.startCause <;> cases s.torn <;> rfl
    rw [State.statusBody, port, length_loadedGroups, flagByte_eq, record]
    simp only [List.append_assoc, List.cons_append, List.nil_append]
    rfl

/-- Settles O26: the flags and kinds cleared, the loaded set emptied. -/
theorem clearAndLoadedRows : Obligations.ClearAndLoadedRows := by
  intro s n k tag takes q
  refine ⟨fun flags kinds two four => ?_, ?_⟩
  · have wf : (Request.clear flags kinds).wf = true := by rw [Request.wf, two, four]; rfl
    exact exec_of_allowed (r := .clear flags kinds) takes rfl wf rfl
  · rw [exec_of_allowed (r := .loaded) takes rfl rfl rfl]
    have body : (s.taking n k).loadedBody n =
        (let groups := (List.range 64).filter (fun g => decide (1 ≤ g) && q.loaded.getLsbD g)
         BitVec.ofNat 8 groups.length :: groups.map (BitVec.ofNat 8)) := by
      simp only [State.loadedBody, ← loadedGroups_num, List.length_map, List.map_map]
      rfl
    rw [← body]
    rfl

/-! ### ARM and DISCARD -/

theorem exec_armNow {s : State} {n : Port} {k : BufId} (takes : s.takes n k) (tag : Byte) (g : GroupId) :
    exec (.armNow n tag (BitVec.ofNat 8 (g.val + 1)) []) s =
      .next (((s.taking n k).arm n g true).2.respond n tag ((s.taking n k).arm n g true).1 []) :=
  exec_of_allowed (r := .arm g true) takes rfl rfl rfl

theorem exec_armNext {s : State} {n : Port} {k : BufId} (takes : s.takes n k) (tag : Byte) (g : GroupId) :
    exec (.armNext n tag (BitVec.ofNat 8 (g.val + 1)) []) s =
      .next (((s.taking n k).arm n g false).2.respond n tag ((s.taking n k).arm n g false).1 []) :=
  exec_of_allowed (r := .arm g false) takes rfl rfl rfl

theorem exec_discard {s : State} {n : Port} {k : BufId} (takes : s.takes n k) (tag : Byte) (g : GroupId) :
    exec (.discard n tag [BitVec.ofNat 8 (g.val + 1)]) s =
      .next (((s.taking n k).discardRequest n g).2.respond n tag ((s.taking n k).discardRequest n g).1 []) :=
  exec_of_allowed (r := .discard g) takes rfl rfl rfl

/-- ARM NOW with the load engine busy queues the group. -/
theorem State.armNow_of_busy {s : State} (busy : s.engine ≠ none) (g : GroupId) : s.armNow g = s.enqueueGroup g :=
  State.startAndPlace_of_no_start fun idle => absurd idle busy

/-- ARM NOW with the load engine IDLE starts the load of the group. -/
theorem State.armNow_of_idle {s : State} (idle : s.engine = none) (empty : s.loadQueue = []) (g : GroupId) :
    s.armNow g =
      match (s.group g).list with
      | e :: _ => ((s.enqueueGroup g).loadStarted g []).place (transferOp e)
      | [] => (s.enqueueGroup g).loadStarted g [] := by
  have head : (s.enqueueGroup g).loadQueue = g :: [] := by
    show s.loadQueue ++ [g] = [g]
    rw [empty]
    rfl
  have list : ((s.enqueueGroup g).group g).list = (s.group g).list := by
    rw [State.enqueueGroup, State.group_updGroup, if_pos rfl]
    rfl
  have started := State.startAndPlace_of_idle (s := s.enqueueGroup g) (g := g) (rest := []) idle head
  rw [list] at started
  exact started

/-- A group queued in an empty load queue, and its load started. -/
theorem State.loadStarted_enqueued (s : State) (g : GroupId) :
    (s.enqueueGroup g).loadStarted g [] =
      { s with
        loadQueue := [], engine := some g
        load := { cycle := s.cycleNumber, transferred := 0, skipped := 0, firstSkipped := none } }.setGroup g
          { s.group g with state := .loading } := by
  simp [State.loadStarted, State.enqueueGroup, State.updGroup, State.setGroup, State.group]

section Outcomes

variable {s : State} {n : Port} {g : GroupId}

theorem State.arm_of_outside (h : (s.group g).armSet.getLsbD n.val = false) (now : Bool) :
    s.arm n g now = (.denied, s) := if_pos (by rw [h]; rfl)

theorem State.discardRequest_of_outside (h : (s.group g).armSet.getLsbD n.val = false) :
    s.discardRequest n g = (.denied, s) := if_pos (by rw [h]; rfl)

/-- ARM by a port of the arm set (R88). -/
theorem State.arm_of_inside (h : (s.group g).armSet.getLsbD n.val = true) {st : GroupState} (hst : (s.group g).state = st)
    (now : Bool) :
    s.arm n g now =
      match (generalizing := false) st with
      | .empty => (.empty, s)
      | .queued | .loading => (.busy, s)
      | .armed => (.ok, if now then s.armNow g else s)
      | .staging =>
        (.ok, if now then s.armNow g
          else if (s.group g).mode = .manual then s.setGroup g { s.group g with state := .armed } else s) := by
  subst hst
  refine (if_neg (by rw [h]; exact Bool.false_ne_true)).trans ?_
  cases (s.group g).state with
  | staging =>
    cases now with
    | true => rfl
    | false =>
      simp only [Bool.false_eq_true, if_false]
      split
      · next manual => rw [if_pos manual]; rfl
      · next cyclic => rw [if_neg (by rw [cyclic]; exact nofun)]
  | _ => cases now <;> rfl

/-- DISCARD by a port of the arm set (R89). -/
theorem State.discardRequest_of_inside (h : (s.group g).armSet.getLsbD n.val = true) {st : GroupState}
    (hst : (s.group g).state = st) :
    s.discardRequest n g =
      match (generalizing := false) st with
      | .empty => (.ok, s)
      | .loading => (.busy, s)
      | .staging | .armed | .queued => (.ok, s.discard g) := by
  subst hst
  refine (if_neg (by rw [h]; exact Bool.false_ne_true)).trans ?_
  cases (s.group g).state <;> rfl

end Outcomes

/-- Settles O27: the arm set first, then the state of the group. -/
theorem armAndDiscardRows : Obligations.ArmAndDiscardRows := by
  intro s n k tag g takes unqueued u number answer now next discard started armed
  have armNow : u.armNow g = armed := by
    by_cases idle : s.engine = none
    · rw [State.armNow_of_idle (s := u) idle (unqueued idle), State.loadStarted_enqueued]
      refine Eq.trans ?_ (if_pos idle).symm
      show _ = match (s.group g).list with
        | e :: _ => started.place _
        | [] => started
      rw [show ([] : List GroupId) = u.loadQueue from (unqueued idle).symm]
      rfl
    · rw [State.armNow_of_busy (s := u) idle]
      exact (if_neg idle).symm
  have nowIs {r : FrameStatus × State} (e : u.arm n g true = r) : answer now r.1 r.2 := e ▸ exec_armNow takes tag g
  have nextIs {r : FrameStatus × State} (e : u.arm n g false = r) : answer next r.1 r.2 := e ▸ exec_armNext takes tag g
  have discardIs {r : FrameStatus × State} (e : u.discardRequest n g = r) : answer discard r.1 r.2 :=
    e ▸ exec_discard takes tag g
  refine ⟨fun outside => ?_, fun inside => ?_⟩
  · exact ⟨nowIs (State.arm_of_outside (s := u) outside _), nextIs (State.arm_of_outside (s := u) outside _),
      discardIs (State.discardRequest_of_outside (s := u) outside)⟩
  · rw [← armNow]
    have results {st : GroupState} (hst : (s.group g).state = st) :=
      And.intro (nowIs (State.arm_of_inside (s := u) inside hst true))
        (And.intro (nextIs (State.arm_of_inside (s := u) inside hst false))
          (discardIs (State.discardRequest_of_inside (s := u) inside hst)))
    cases hst : (s.group g).state <;> exact results hst

end Sys2Proof.Machine
end

section
/-! Group and cycle requests, the one operation of a descriptor or map request, and FLUSH, LOG and RESET (R45, R48, R59, R64,
R65, R90, R91, R96, R119, R120, R152, R154). -/

namespace Sys2Proof.Machine

/-! ### GROUP_STATUS, GROUP_WRITE and CYCLE -/

theorem modeCode_eq (mode : GroupMode) : modeCode mode = if mode = .manual then 0 else 1 := by cases mode <;> rfl

theorem lastLoadBytes_eq (l : Option LastLoad) :
    lastLoadBytes l =
      match l with
      | none => [0, 0, 0, 0, 0, 0, 0, 0xFF, 0xFF]
      | some l =>
        [if l.partialLoad then 2 else 1] ++ halfBytes l.cycle ++ natBytes2 l.transferred ++ natBytes2 l.skipped ++
          (match l.firstSkipped with
            | none => [0xFF, 0xFF]
            | some p => natBytes2 p) := by
  cases l with
  | none => rfl
  | some l =>
    obtain ⟨_, _, _, _, first⟩ := l
    cases first <;> rfl

theorem State.groupWrite_eq (s : State) (g : GroupId) (mode : GroupMode) (arms : BitVec 4) :
    s.groupWrite g mode arms =
      if (s.group g).state = .empty then (.ok, s.updGroup g (fun r => { r with mode := mode, armSet := arms }))
      else (.busy, s) := by
  unfold State.groupWrite
  split
  · next e => rw [if_pos e]
  · next e => rw [if_neg e]

/-- Settles O28: GROUP_STATUS reads the record, GROUP_WRITE an EMPTY group's, CYCLE makes a cycle event. -/
theorem groupAndCycleRows : Obligations.GroupAndCycleRows := by
  intro s n k tag g takes u number
  refine ⟨?_, fun supervisor => ⟨fun mode arms => ?_, ?_⟩⟩
  · rw [exec_of_allowed (r := .groupStatus g) takes rfl rfl rfl]
    show Host.Outcome.next (State.respond _ n tag .ok (State.groupBody _ g)) = _
    rw [State.groupBody, modeCode_eq, lastLoadBytes_eq]
    simp only [List.append_assoc, List.cons_append, List.nil_append]
    rfl
  · rw [← modeCode_eq, exec_of_allowed (r := .groupWrite g mode arms) takes rfl rfl supervisor]
    show Host.Outcome.next (State.respond _ n tag _ []) = _
    rw [State.groupWrite_eq]
    show Host.Outcome.next (State.respond (if (s.group g).state = .empty then _ else _ : FrameStatus × State).2 n tag
      (if (s.group g).state = .empty then _ else _ : FrameStatus × State).1 []) = _
    split <;> rfl
  · rw [exec_of_allowed (r := .cycle) takes rfl rfl supervisor]
    show Host.Outcome.next (State.respond _ n tag .ok (halfBytes u.cycleEvent.cycleNumber)) = _
    have advanced : u.cycleEvent.cycleNumber = s.cycleNumber + 1 := by
      rw [State.cycleEvent_frame]
      rfl
    rw [advanced]

/-! ### Descriptor and map requests -/

theorem limitsCrossed_iff (p : LimitPolicy) (low high : Value) :
    limitsCrossed p low high = true ↔ p ≠ .none ∧ high.toInt < low.toInt := by
  cases p with
  | none => simp [limitsCrossed]
  | _ => simp [limitsCrossed, BitVec.slt_iff_toInt_lt]

/-- Settles O29: each asks its one operation, or is refused RANGE. -/
theorem descriptorAndMapRequests : Obligations.DescriptorAndMapRequests := by
  intro s n k tag takes u ask
  refine ⟨fun p hp => ?_, fun target page hl => ?_, fun supervisor =>
    ⟨fun p desc low high d hp hd => ?_, fun target page entry hl clear => ?_⟩⟩
  · exact exec_of_allowed (r := .descRead p) takes rfl (decide_eq_true hp) rfl
  · exact exec_of_allowed (r := .mapRead target page) takes rfl (decide_eq_true hl) rfl
  · rw [exec_of_decoded_allowed takes rfl rfl (decodeDescWrite_params hp hd low high) supervisor]
    simp only [State.runRequest, limitsCrossed_iff]
    rfl
  · have reserved (present : entryPresent entry = true) : entryReservedClear entry = true := beq_iff_eq.2 (clear present)
    rw [exec_of_decoded_allowed takes rfl rfl (decodeMapWrite_params target hl reserved) supervisor]
    show Host.Outcome.next (if (_ && _) = true then _ else _) = _
    rw [normalEntry]
    cases present : entryPresent entry with
    | false =>
      have absent : entry.getLsbD 31 = false := present
      simp only [absent, Bool.false_eq_true, false_and, if_false]
      rfl
    | true =>
      have there : entry.getLsbD 31 = true := present
      simp only [there, present, if_true, true_and, Bool.true_and, decide_eq_true_eq]
      rfl

/-! ### FLUSH, LOG_READ, LOG_CLEAR and RESET -/

/-- The four bytes of a log entry. -/
theorem logBytes_eq (e : Option LogEntry) :
    logBytes e =
      match e with
      | none => [0, 0, 0, 0]
      | some e => [1] ++ natBytes2 e.slot ++
          [BitVec.ofNat 8 (wordIndex e.word + 16 * (match e.source with
            | .ce m => m.val
            | .load => 4
            | .scrub => 5))] := by
  cases e with
  | none => rfl
  | some e =>
    have byte (w : WordName) (r : Requester) :
        BitVec.ofNat 8 (wordIndex w) ||| (sourceBits r <<< 4) =
          BitVec.ofNat 8 (wordIndex w + 16 * (match r with
            | .ce m => m.val
            | .load => 4
            | .scrub => 5)) := by
      cases r with
      | ce m => revert m; cases w <;> decide
      | load => cases w <;> decide
      | scrub => cases w <;> decide
    simp only [logBytes, byte]
    rfl

/-- Settles O30: the cache of the target emptied, the log read and cleared. -/
theorem flushAndLogRows : Obligations.FlushAndLogRows := by
  intro s n k tag takes u entry
  refine ⟨fun target allowed => ?_, ?_, fun supervisor => ?_⟩
  · refine exec_of_allowed (r := .flush target) takes rfl rfl ?_
    simpa [roleAllows] using allowed
  · rw [exec_of_allowed (r := .logRead) takes rfl rfl rfl]
    show Host.Outcome.next (State.respond _ n tag .ok (State.logBody _)) = _
    have body : u.logBody = [if s.log.updated then 1 else 0] ++ entry s.log.corrected ++ entry s.log.uncorrectable := by
      rw [State.logBody, flagByte_eq, logBytes_eq, logBytes_eq]
      rfl
    rw [body]
    rfl
  · exact exec_of_allowed (r := .logClear) takes rfl rfl supervisor

/-- Settles O31: the scope's complement decides. -/
theorem resetRequestsWaitForTheirResponse : Obligations.ResetRequestsWaitForTheirResponse := by
  intro s n k j tag takes supervisor u reserved
  have outcome (scope : ResetScope) (c : Instr) (co : Byte)
      (hf : frameOf c = some (n, tag :: opReset :: [scopeByte scope, co])) :
      exec c s = .next (if co = ~~~(scopeByte scope) then (u.respond n tag .ok []).setEngine n (.resetWait j scope)
        else u.respond n tag .pairFail []) := by
    rw [exec_of_decoded_allowed takes hf rfl (decodeReset_bytes scope co) supervisor]
    simp only [State.runRequest, State.awaitReset, reserved, beq_iff_eq, u]
  refine ⟨fun co => outcome .warm _ co rfl, fun m co => outcome (.port m) _ co rfl⟩

end Sys2Proof.Machine
end

section
/-! The settings rows (11.2, R170, R171), the start of a point run (R144, R145), its translations (R51, R54) and its records
(R146, 13.2). -/

namespace Sys2Proof.Machine

/-! ### SETTING_READ and SETTING_WRITE -/

theorem frameOf_settingRow (n : Port) (tag port : Byte) (value : List Byte) (i : Item) :
    frameOf (settingRow n tag port value i) = some (n, tag :: opSettingWrite :: i.code :: port :: value) := by
  cases i <;> rfl

theorem State.itemBytes_taking (s : State) (n : Port) (k : BufId) (m : Port) (i : Item) :
    (s.taking n k).itemBytes m i = s.itemBytes m i := by
  have cfg : ((s.taking n k).port m).cfg = (s.port m).cfg := by
    by_cases h : m = n
    · obtain ⟨x, y, e⟩ := s.port_taking_frame n k
      rw [h, e]
    · rw [State.port_taking_of_ne s k h]
  rw [State.itemBytes_eq, State.itemBytes_eq, cfg]
  rfl

/-- SETTING_WRITE with the byte `co` as the complement where one is called for (R171). -/
theorem State.runRequest_settingWrite (s : State) (n : Port) (tag : Byte) (i : Item) (m : Port) (v : BitVec 64) (co : Byte) :
    s.runRequest n tag (.settingWrite i m v (i != .crcEnforcement || co == ~~~(v.setWidth 8))) =
      if i = .crcEnforcement ∧ co ≠ ~~~(v.setWidth 8) then s.respond n tag .pairFail []
      else (s.writeItem i m v).respond n tag .ok [] := by
  simp only [State.runRequest]
  by_cases crc : i = .crcEnforcement
  · by_cases paired : co = ~~~(v.setWidth 8)
    · simp [paired]
    · simp [crc, paired]
  · simp [crc]

/-- Settles O32: the table, and the rows of each item. -/
theorem settingRows : Obligations.SettingRows := by
  refine ⟨fun i => ?_, ?_⟩
  · cases i with
    | level k => revert k; decide
    | _ => rfl
  intro s n k tag i m v co takes device inRange len u pair
  refine ⟨?_, ?_⟩
  · rw [← State.itemBytes_taking s n k]
    exact exec_of_decoded_allowed (c := .settingRead n tag [i.code, BitVec.ofNat 8 m.val]) (tag := tag) (op := opSettingRead)
      takes rfl rfl (decodeSettingRead_params device) rfl
  · have decoded := decodeSettingWrite_bytes device inRange len co
    rw [exec_of_decoded takes (frameOf_settingRow n tag _ _ i) rfl decoded]
    have allowed (ok : Bool) : roleAllows (s.port n).supervisor n (.settingWrite i m v ok) = true ↔
        if i.kind = .ownPort then m = n else (s.port n).supervisor = true := by
      rw [roleAllows_settingWrite]
      split <;> simp
    rw [State.runRequest_settingWrite]
    simp only [allowed]
    rfl

/-! ### Point runs begin (R144) -/

/-- The control byte as a sum. -/
theorem controlByte_eq (down : Bool) {todo : List PointAccess} (one : 1 ≤ todo.length) (sixteen : todo.length ≤ 16) :
    controlByte down todo =
      BitVec.ofNat 8 (todo.length - 1 + (if down then 16 else 0) +
        (if (todo.head?.bind PointAccess.mask).isSome then 32 else 0) +
        (if todo.head?.any PointAccess.prefers then 64 else 0)) := by
  have sums : ∀ (less : Fin 16) (down masked prefer : Bool),
      BitVec.ofNat 8 less.val ||| (if down then 0x10 else 0) ||| (if masked then 0x20 else 0) |||
          (if prefer then 0x40 else 0) =
        BitVec.ofNat 8 (less.val + (if down then 16 else 0) + (if masked then 32 else 0) + (if prefer then 64 else 0)) := by
    decide
  exact sums ⟨todo.length - 1, by omega⟩ _ _ _

/-- Settles O35: the frame of each run decodes to it. -/
theorem pointRunRowsBegin : Obligations.PointRunRowsBegin := by
  intro s n k tag start down count takes one sixteen begun head
  have reads (prefer : Bool) : head prefer false = runParams start down (List.replicate count (.read prefer)) := by
    have first : (List.replicate count (PointAccess.read prefer)).head? = some (.read prefer) := by
      rw [List.head?_replicate, if_neg (by omega)]
    rw [runParams_reads _ _ _ one, controlByte_eq down (by simpa using one) (by simpa using sixteen), first,
      List.length_replicate]
    rfl
  have writes (stage : Bool) (mask : Option Value) {values : List Value} (len : values.length = count) :
      head false mask.isSome ++ (mask.toList ++ values).flatMap valueBytes =
        runParams start down (values.map (PointAccess.write stage mask)) := by
    subst len
    obtain ⟨v, vs, rfl⟩ := List.exists_cons_of_length_pos one
    rw [runParams_writes _ _ _ _ one, controlByte_eq down (by simp) (by simpa using sixteen), List.length_map,
      List.map_cons, List.head?_cons]
    cases mask <;> cases stage <;> rfl
  have readRow {c : Instr} {op : Byte} {shape : RecordShape} (prefer : Bool)
      (hf : frameOf c = some (n, tag :: op :: head prefer false)) (hd : requestDecoder op = some (decodeReadRun shape)) :
      exec c s = .next (begun shape (List.replicate count (.read prefer))) :=
    exec_of_decoded_allowed (r := .run shape start down (List.replicate count (.read prefer))) takes hf hd
      (by rw [reads]; exact decodeReadRun_params shape start down prefer one sixteen) rfl
  have writeRow {c : Instr} {op : Byte} (stage : Bool) (mask : Option Value) {values : List Value}
      (len : values.length = count)
      (hf : frameOf c = some (n, tag :: op :: (head false mask.isSome ++ (mask.toList ++ values).flatMap valueBytes)))
      (hd : requestDecoder op = some (decodeWriteRun stage)) :
      exec c s = .next (begun .status (values.map (PointAccess.write stage mask))) :=
    exec_of_decoded_allowed (r := .run .status start down (values.map (PointAccess.write stage mask))) takes hf hd
      (by rw [writes stage mask len]; exact decodeWriteRun_params start down stage mask (len ▸ one) (len ▸ sixteen)) rfl
  refine ⟨fun prefer => readRow prefer rfl rfl, fun prefer => readRow prefer rfl rfl, fun values len =>
    ⟨writeRow true none len rfl rfl, writeRow false none len rfl rfl, fun mask =>
      ⟨writeRow (op := opStage) true (some mask) len ?_ rfl, writeRow (op := opPost) false (some mask) len ?_ rfl⟩⟩⟩ <;>
    simp [frameOf]

/-! ### Translation (R51, R54) -/

theorem PortState.lookup_eq_none_iff (p : PortState) (l : Nat) : p.lookup l = none ↔ ∀ e ∈ p.cache, e.logical ≠ l := by
  simp [PortState.lookup]

/-- A page is held at most once. -/
theorem PortState.lookup_of_mem {p : PortState} {e : CacheEntry} (he : e ∈ p.cache)
    (once : (p.cache.map CacheEntry.logical).Nodup) : p.lookup e.logical = some e := by
  unfold PortState.lookup
  generalize p.cache = c at he once
  induction c with
  | nil => cases he
  | cons x c ih =>
    obtain ⟨new, once⟩ := List.nodup_cons.1 once
    rcases List.mem_cons.1 he with rfl | he
    · exact List.find?_cons_of_pos (by simp)
    · have differs : ¬(x.logical == e.logical) = true := fun h =>
        new (beq_iff_eq.1 h ▸ List.mem_map_of_mem he)
      exact (List.find?_cons_of_neg (p := fun y : CacheEntry => y.logical == e.logical) differs).trans (ih he once)

theorem State.goOn_of_done (s : State) (n : Port) {r : PointRun} (h : r.todo = []) :
    s.goOn n r = s.respond n r.tag .ok r.records := by rw [State.goOn, h]; rfl

theorem State.goOn_of_cons (s : State) (n : Port) {r : PointRun} {a : PointAccess} {rest : List PointAccess}
    (h : r.todo = a :: rest) :
    s.goOn n r =
      if 16 * (s.port n).cfg.viewSize.toNat ≤ r.point.toNat then
        s.goOn n (r.settle (.refused .unmapped r.corrected))
      else
        match (s.port n).lookup (r.point.toNat / 16) with
        | none => s.askFill n r (r.point.toNat / 16)
        | some e =>
          if e.rights.getLsbD a.rightBit then
            (s.updPort n (PortState.touch (r.point.toNat / 16))).askAccess n r a (slotIn e.page r.point)
          else
            (s.updPort n (PortState.touch (r.point.toNat / 16))).goOn n (r.settle (.refused .denied r.corrected)) := by
  have left (x : PointResult) : (r.settle x).todo = rest := by rw [PointRun.settle, h]; rfl
  simp only [State.goOn, left, h]
  rfl

/-- Settles O36: view, cache and rights in their order. -/
theorem pointTranslation : Obligations.PointTranslation := by
  intro s n r i refused
  refine ⟨fun done => s.goOn_of_done n done, fun a rest todo => ⟨fun beyond => ?_, fun within => ⟨fun miss => ?_,
    fun e he page once => ?_⟩⟩⟩
  · rw [State.goOn_of_cons s n todo, if_pos beyond]
    rfl
  · rw [State.goOn_of_cons s n todo, if_neg (by omega), (PortState.lookup_eq_none_iff _ _).2 miss]
    rfl
  · intro t right
    have held : (s.port n).lookup (r.point.toNat / 16) = some e := by
      rw [← PortState.lookup_of_mem he once, page]
    rw [State.goOn_of_cons s n todo, if_neg (by omega), held]
    have touched : s.updPort n (PortState.touch (r.point.toNat / 16)) = t := by
      rw [State.updPort, PortState.touch, held]
      rfl
    have bit : a.rightBit = right := by cases a <;> rfl
    simp only [bit, touched]
    rfl

/-! ### Records (R146) -/

theorem natBytes2_eq (k : Nat) : natBytes2 k = [BitVec.ofNat 8 (k / 256), BitVec.ofNat 8 k] := by
  have high : (BitVec.ofNat 16 k).extractLsb' 8 8 = BitVec.ofNat 8 (k / 256) := by
    refine BitVec.eq_of_toNat_eq ?_
    rw [BitVec.extractLsb'_toNat, Nat.shiftRight_eq_div_pow, BitVec.toNat_ofNat, BitVec.toNat_ofNat]
    omega
  have low : (BitVec.ofNat 16 k).extractLsb' 0 8 = BitVec.ofNat 8 k := by
    refine BitVec.eq_of_toNat_eq ?_
    rw [BitVec.extractLsb'_toNat, Nat.shiftRight_eq_div_pow, BitVec.toNat_ofNat, BitVec.toNat_ofNat]
    omega
  rw [natBytes2, halfBytes, high, low]

/-- The status byte as a sum (13.2). -/
theorem statusByte_eq (st : PointStatus) (corrected fromStaged : Bool) :
    statusByte st corrected fromStaged =
      BitVec.ofNat 8 ((match st with
        | .ok => 0
        | .clamped => 1
        | .poisoned => 2
        | .fault => 3
        | .vacant => 4
        | .unmapped => 5
        | .mapFault => 6
        | .denied => 7
        | .range => 8
        | .busy => 9
        | .poolFull => 10
        | .expired => 11) + (if corrected then 16 else 0) + (if fromStaged then 32 else 0)) := by
  revert corrected fromStaged
  cases st <;> decide

/-- Settles O37: the bytes of fields, items and records. -/
theorem runRecordLayout : Obligations.RunRecordLayout := by
  refine ⟨fun v h k => ⟨rfl, rfl, natBytes2_eq k⟩, fun i v => ?_, fun r x => ?_⟩
  · cases i <;> rfl
  · have record : x.record r.shape = [statusByte x.status x.corrected x.fromStaged] ++ (match r.shape with
        | .read => valueBytes x.value
        | .stamped => valueBytes x.value ++ [BitVec.ofNat 8 x.group] ++ halfBytes x.cycle
        | .status => []) := by
      cases r.shape <;> rfl
    rw [PointRun.settle, ← List.drop_one, record, statusByte_eq]
    rfl

end Sys2Proof.Machine
end

section
/-! The completions of READ, STAGE and POST (R33 to R44, R102): what the descriptor calls for, the result that the run takes, and
the effects. -/

namespace Sys2Proof.Machine

/-! ### What a descriptor as read calls for -/

section Described

variable {s : State} {slot : Nat} {d : Descriptor}

theorem State.readDesc_defined_of_none (h : (s.word slot .desc).yield = none) : s.readDesc slot ≠ .undefinedCode := by
  rw [State.readDesc_of_none h]
  exact nofun

theorem State.readDesc_defined_of_fields (h : s.readDesc slot = .fields d) : s.readDesc slot ≠ .undefinedCode := by
  rw [h]
  exact nofun

theorem State.kindOf_of_unreadable (h : s.readDesc slot = .unreadable) : s.kindOf slot = .unused := by
  simp only [State.kindOf, h]

theorem State.kindOf_of_fields (h : s.readDesc slot = .fields d) : s.kindOf slot = d.kind := by
  simp only [State.kindOf, h]

theorem State.planRead_of_unreadable (h : s.readDesc slot = .unreadable) (prefer : Bool) :
    s.planRead slot prefer = .refuse .fault := by simp only [State.planRead, h]

theorem State.planRead_of_fields (h : s.readDesc slot = .fields d) (prefer : Bool) :
    s.planRead slot prefer =
      match d.kind with
      | .unused => .refuse .vacant
      | .reading | .constant => .word .live
      | .setpoint g =>
        if (s.group g).state = .loading then .hold g
        else .word (if prefer = true ∧ s.marked slot = true then .staged else .live) := by
  simp only [State.planRead, h]
  cases d.kind with
  | setpoint g =>
    simp only [Bool.and_eq_true]
    split
    · rfl
    · split <;> rfl
  | _ => rfl

end Described

/-! ### READ (R36 to R40, R102) -/

theorem State.ce_endCompletion (z s : State) (b : BankId) (src : Requester) (slot : Nat) (reads : List WordName) (n : Port) :
    ((z.endCompletion s b src slot reads).port n).ce = (s.port n).ce := by
  obtain ⟨m, e⟩ := State.port_endCompletion z s b src slot reads n
  rw [e]

theorem State.cfg_endCompletion (z s : State) (b : BankId) (src : Requester) (slot : Nat) (reads : List WordName)
    (n : Port) : ((z.endCompletion s b src slot reads).port n).cfg = (s.port n).cfg := by
  obtain ⟨m, e⟩ := State.port_endCompletion z s b src slot reads n
  rw [e]

section Reads

variable {s : State} {b : BankId} {n : Port} {slot slot' : Nat} {r : PointRun}

theorem State.readHanded_of_hold {t : State} (h : (t.port n).ce = .waiting (.access r slot')) (g : GroupId) :
    s.readHanded t n slot (.hold g) =
      t.beginHold n { r with corrected := r.corrected || s.anyCorrectable slot [.desc] } g slot (s.lastCycle (.setpoint g)) := by
  simp only [State.readHanded, h]
  rfl

theorem State.readHanded_of_result {t : State} (h : (t.port n).ce = .waiting (.access r slot')) {plan : ReadPlan}
    (hp : ∀ g, plan ≠ .hold g) :
    s.readHanded t n slot plan =
      (t.goOn n (r.settle (s.readResult slot plan (r.corrected || s.anyCorrectable slot plan.reads)))).serve n := by
  simp only [State.readHanded, h]
  cases plan with
  | hold g => exact absurd rfl (hp g)
  | _ => rfl

/-- A READ that its engine waits for. -/
theorem exec_read_of_plan {prefer : Bool} {plan : ReadPlan}
    (hf : s.inFlight b = some { who := .ce n, slot := slot, act := .read prefer, dropped := false })
    (defined : s.readDesc slot ≠ .undefinedCode) (hp : s.planRead slot prefer = plan) :
    exec (.readCompletion b) s =
      .next (s.readHanded (s.endCompletion s b (.ce n) slot plan.reads) n slot plan) := by
  rw [exec_readCompletion hf, unlessUndefined_of_defined defined, State.readDone, hp]
  rfl

end Reads

/-- Settles O39: by the descriptor as read, and by its kind. -/
theorem readCompletionOutcomes : Obligations.ReadCompletionOutcomes := by
  intro s b n slot slot' prefer r hf hce ends gives
  have waits (reads : List WordName) : ((s.endCompletion s b (.ce n) slot reads).port n).ce = .waiting (.access r slot') :=
    (State.ce_endCompletion _ _ _ _ _ _ _).trans hce
  have refused {st : PointStatus} (defined : s.readDesc slot ≠ .undefinedCode) (hp : s.planRead slot prefer = .refuse st)
      (kind : s.kindOf slot = .unused) : ends [.desc] st false 0xFFFFFFFF 0 0xFFFF := by
    show exec _ _ = _
    rw [exec_read_of_plan hf defined hp, State.readHanded_of_result (plan := .refuse st) (waits _) (fun _ => nofun),
      State.readResult, kind]
    rfl
  have worded {w : WordName} (defined : s.readDesc slot ≠ .undefinedCode) (hp : s.planRead slot prefer = .word w) :
      gives w (s.kindOf slot).groupNum (s.lastCycle (s.kindOf slot)) := by
    refine ⟨fun v hv => ?_, fun hv => ?_⟩ <;> show exec _ _ = _ <;>
      rw [exec_read_of_plan hf defined hp, State.readHanded_of_result (plan := .word w) (waits _) (fun _ => nofun),
        State.readResult, readWordResult, hv] <;>
      rfl
  refine ⟨fun hd => ?_, fun v d hv hd => ?_⟩
  · have unreadable := State.readDesc_of_none hd
    exact refused (State.readDesc_defined_of_none hd) (State.planRead_of_unreadable unreadable _)
      (State.kindOf_of_unreadable unreadable)
  · have fields := State.readDesc_of_some hv hd
    have defined := State.readDesc_defined_of_fields fields
    have kind := State.kindOf_of_fields fields
    have plan := State.planRead_of_fields fields prefer
    cases hk : d.kind with
    | unused =>
      rw [hk] at plan kind
      exact refused defined plan kind
    | reading | constant =>
      rw [hk] at plan kind
      have := worded defined plan
      rw [kind] at this
      exact this
    | setpoint g =>
      rw [hk] at plan kind
      simp only
      split
      · next loading =>
        rw [exec_read_of_plan hf defined (plan.trans (if_pos loading)), State.readHanded_of_hold (waits _), State.beginHold,
          State.cfg_endCompletion]
        simp only [State.anyCorrectable, List.any_cons, List.any_nil, Bool.or_false]
        rfl
      · next settled =>
        have := worded defined (plan.trans (if_neg settled))
        rw [kind] at this
        exact this

end Sys2Proof.Machine
end

section
/-! The completions of STAGE and POST (R33 to R36, R41 to R44): the refusals in their order, and the effects. -/

namespace Sys2Proof.Machine

/-! ### Limits, masks and the value to write (R34, R35, R43) -/

section Settling

variable {s : State} {slot : Nat} {policy : LimitPolicy} {base : WordName} {sent : Value} {mask : Option Value}

theorem writeReads_eq (policy : LimitPolicy) (mask : Option Value) (base : WordName) :
    writeReads policy mask base =
      [.desc] ++ (if policy = .none then [] else [.low, .high]) ++ (if mask = none then [] else [base]) := by
  cases policy <;> cases mask <;> rfl

theorem State.limitsRead_of_unreadable (hp : policy ≠ .none)
    (h : (s.word slot .low).yield = none ∨ (s.word slot .high).yield = none) : s.limitsRead slot policy = none := by
  cases policy with
  | none => exact absurd rfl hp
  | refuse | clamp =>
    simp only [State.limitsRead]
    rcases h with h | h <;> rw [h]
    cases (s.word slot .low).yield <;> rfl

/-- The limits that a check uses; policy NONE looks at none. -/
theorem State.limitsRead_of_readable {low high : Value}
    (h : policy ≠ .none → (s.word slot .low).yield = some low ∧ (s.word slot .high).yield = some high) :
    ∃ lo hi, s.limitsRead slot policy = some (lo, hi) ∧ ∀ x, checkLimits policy lo hi x = checkLimits policy low high x := by
  cases policy with
  | none => exact ⟨_, _, rfl, fun _ => rfl⟩
  | refuse | clamp =>
    obtain ⟨hl, hh⟩ := h nofun
    exact ⟨low, high, by simp only [State.limitsRead, hl, hh], fun _ => rfl⟩

theorem State.settleWrite_of_unreadable (hp : policy ≠ .none)
    (h : (s.word slot .low).yield = none ∨ (s.word slot .high).yield = none) (base : WordName) (sent : Value)
    (mask : Option Value) : s.settleWrite slot policy base sent mask = .error .fault := by
  simp only [State.settleWrite, State.limitsRead_of_unreadable hp h]

theorem State.settleWrite_of_no_base {low high m : Value}
    (h : policy ≠ .none → (s.word slot .low).yield = some low ∧ (s.word slot .high).yield = some high)
    (hm : mask = some m) (hb : (s.word slot base).yield = none) :
    s.settleWrite slot policy base sent mask = .error .poisoned := by
  obtain ⟨lo, hi, limits, -⟩ := State.limitsRead_of_readable h
  simp only [State.settleWrite, limits, State.valueToCheck, hm, hb, Option.map_none]

theorem State.settleWrite_of_value {low high x : Value}
    (h : policy ≠ .none → (s.word slot .low).yield = some low ∧ (s.word slot .high).yield = some high)
    (plain : mask = none → x = sent)
    (merged : ∀ m, mask = some m → ∃ w, (s.word slot base).yield = some w ∧ x = mergeValue m sent w) :
    s.settleWrite slot policy base sent mask =
      match checkLimits policy low high x with
      | .outside => .error .range
      | .written y => .ok (y, false)
      | .clamped y => .ok (y, true) := by
  obtain ⟨lo, hi, limits, same⟩ := State.limitsRead_of_readable h
  have value : s.valueToCheck slot base sent mask = some x := by
    cases mask with
    | none => rw [plain rfl]; rfl
    | some m =>
      obtain ⟨w, hw, rfl⟩ := merged m rfl
      simp only [State.valueToCheck, hw, Option.map_some]
  cases outcome : checkLimits policy low high x <;> simp only [State.settleWrite, limits, value, same, outcome]

end Settling

/-! ### The gates (R33, R36) -/

section Gates

variable {s : State} {slot : Nat} {d : Descriptor}

theorem State.stageGate_of_unreadable (h : s.readDesc slot = .unreadable) (n : Port) :
    s.stageGate n slot = .error .fault := by simp only [State.stageGate, h]

theorem State.stageGate_of_fields (h : s.readDesc slot = .fields d) (n : Port) :
    s.stageGate n slot =
      match d.kind with
      | .unused => .error .vacant
      | .reading | .constant => .error .denied
      | .setpoint g => if d.writers.getLsbD n.val = false then .error .denied else .ok (g, d.policy) := by
  simp only [State.stageGate, h]
  cases d.kind with
  | setpoint g => cases d.writers.getLsbD n.val <;> rfl
  | _ => rfl

theorem State.postGate_of_unreadable (h : s.readDesc slot = .unreadable) (n : Port) :
    s.postGate n slot = .error .fault := by simp only [State.postGate, h]

theorem State.postGate_of_fields (h : s.readDesc slot = .fields d) (n : Port) :
    s.postGate n slot =
      match d.kind with
      | .unused => .error .vacant
      | .setpoint _ => .error .denied
      | .reading => if d.writers.getLsbD n.val = false then .error .denied else .ok d.policy
      | .constant => if (s.port n).supervisor = false then .error .denied else .ok .none := by
  simp only [State.postGate, h]
  cases d.kind with
  | reading => cases d.writers.getLsbD n.val <;> rfl
  | constant => cases (s.port n).supervisor <;> rfl
  | _ => rfl

end Gates

/-! ### The effects -/

section Effects

variable {s : State} {n : Port} {slot : Nat} {sent : Value} {mask : Option Value}

theorem State.stageEffect_of_refusal {st : PointStatus} (h : s.stageGate n slot = .error st) :
    s.stageEffect n slot sent mask = ⟨st, [.desc], s⟩ := by simp only [State.stageEffect, h]

theorem State.stageEffect_of_error {g : GroupId} {policy : LimitPolicy} {st : PointStatus}
    (h : s.stageGate n slot = .ok (g, policy))
    (hw : s.settleWrite slot policy (s.stageBase slot) sent mask = .error st) :
    s.stageEffect n slot sent mask = ⟨st, writeReads policy mask (s.stageBase slot), s⟩ := by
  simp only [State.stageEffect, h, hw]

/-- A STAGE that passes its checks is admitted or not (R41). -/
theorem State.stageEffect_of_value {g : GroupId} {policy : LimitPolicy} {y : Value} {clamped : Bool}
    (h : s.stageGate n slot = .ok (g, policy))
    (hw : s.settleWrite slot policy (s.stageBase slot) sent mask = .ok (y, clamped)) :
    s.stageEffect n slot sent mask =
      if (s.group g).state = .loading then ⟨.busy, writeReads policy mask (s.stageBase slot), s⟩
      else if s.marked slot = true then
        ⟨writtenStatus clamped, writeReads policy mask (s.stageBase slot), (s.restage n slot).writeWord slot .staged y⟩
      else if s.freeList = [] then ⟨.poolFull, writeReads policy mask (s.stageBase slot), s⟩
      else
        ⟨writtenStatus clamped, writeReads policy mask (s.stageBase slot),
          (s.newStage n slot g).writeWord slot .staged y⟩ := by
  simp only [State.stageEffect, h, hw, State.admission]
  by_cases loading : (s.group g).state = .loading
  · simp only [if_pos loading]
  · simp only [if_neg loading]
    by_cases marked : s.marked slot = true
    · simp only [if_pos marked]
    · simp only [if_neg marked]
      cases s.freeList <;> rfl

theorem State.postEffect_of_refusal {st : PointStatus} (h : s.postGate n slot = .error st) :
    s.postEffect n slot sent mask = ⟨st, [.desc], s⟩ := by simp only [State.postEffect, h]

theorem State.postEffect_of_error {policy : LimitPolicy} {st : PointStatus} (h : s.postGate n slot = .ok policy)
    (hw : s.settleWrite slot policy .live sent mask = .error st) :
    s.postEffect n slot sent mask = ⟨st, writeReads policy mask .live, s⟩ := by
  simp only [State.postEffect, h, hw]

theorem State.postEffect_of_value {policy : LimitPolicy} {y : Value} {clamped : Bool} (h : s.postGate n slot = .ok policy)
    (hw : s.settleWrite slot policy .live sent mask = .ok (y, clamped)) :
    s.postEffect n slot sent mask =
      ⟨writtenStatus clamped, writeReads policy mask .live, s.writeWord slot .live y⟩ := by
  simp only [State.postEffect, h, hw]

end Effects

theorem State.ce_restage (s : State) (n : Port) (p : Nat) (m : Port) :
    ((s.restage n p).port m).ce = (s.port m).ce := by
  rw [State.restage_frame]
  rfl

theorem State.ce_newStage (s : State) (n : Port) (p : Nat) (g : GroupId) (m : Port) :
    ((s.newStage n p g).port m).ce = (s.port m).ce := by
  obtain e | e := s.port_newStage n p g m <;> rw [e]
  rfl

/-! ### The ends -/

section Ends

variable {s : State} {b : BankId} {n : Port} {slot slot' : Nat} {sent : Value} {mask : Option Value} {r : PointRun}

/-- The result of a STAGE or POST goes to the run that waits for it. -/
theorem State.writeDone_of_run {x : WriteEffect} (hce : (x.state.port n).ce = .waiting (.access r slot')) :
    s.writeDone b n slot false x =
      ((s.endCompletion x.state b (.ce n) slot x.reads).goOn n (r.settle
        { status := x.status, corrected := r.corrected || x.reads.any (fun w => (s.word slot w).isCorrectable),
          fromStaged := false, value := 0xFFFFFFFF, group := 0, cycle := 0xFFFF })).serve n := by
  have waits := (State.ce_endCompletion s x.state b (.ce n) slot x.reads n).trans hce
  simp only [State.writeDone, Bool.false_eq_true, if_false, State.writeHanded, waits]
  rfl

theorem exec_stage_ends (hf : s.inFlight b = some { who := .ce n, slot := slot, act := .stage sent mask, dropped := false })
    (defined : s.readDesc slot ≠ .undefinedCode) (hce : (s.port n).ce = .waiting (.access r slot')) {st : PointStatus}
    {reads : List WordName} {t : State} (he : s.stageEffect n slot sent mask = ⟨st, reads, t⟩)
    (kept : (t.port n).ce = (s.port n).ce) :
    exec (.stageCompletion b) s = .next
      (((s.endCompletion t b (.ce n) slot reads).goOn n (r.settle
        { status := st, corrected := r.corrected || reads.any (fun w => (s.word slot w).isCorrectable),
          fromStaged := false, value := 0xFFFFFFFF, group := 0, cycle := 0xFFFF })).serve n) := by
  rw [exec_stageCompletion hf, unlessUndefined_of_defined defined, he, State.writeDone_of_run (kept.trans hce)]

theorem exec_post_ends (hf : s.inFlight b = some { who := .ce n, slot := slot, act := .post sent mask, dropped := false })
    (defined : s.readDesc slot ≠ .undefinedCode) (hce : (s.port n).ce = .waiting (.access r slot')) {st : PointStatus}
    {reads : List WordName} {t : State} (he : s.postEffect n slot sent mask = ⟨st, reads, t⟩)
    (kept : (t.port n).ce = (s.port n).ce) :
    exec (.postCompletion b) s = .next
      (((s.endCompletion t b (.ce n) slot reads).goOn n (r.settle
        { status := st, corrected := r.corrected || reads.any (fun w => (s.word slot w).isCorrectable),
          fromStaged := false, value := 0xFFFFFFFF, group := 0, cycle := 0xFFFF })).serve n) := by
  rw [exec_postCompletion hf, unlessUndefined_of_defined defined, he, State.writeDone_of_run (kept.trans hce)]

end Ends

/-- Settles O41: the gate, the limits, the mask, and the admission. -/
theorem stageCompletionOutcomes : Obligations.StageCompletionOutcomes := by
  intro s b n slot slot' sent mask r hf hce ends
  have ended {t : State} {reads : List WordName} {st : PointStatus} (defined : s.readDesc slot ≠ .undefinedCode)
      (he : s.stageEffect n slot sent mask = ⟨st, reads, t⟩) (kept : (t.port n).ce = (s.port n).ce) : ends t reads st :=
    exec_stage_ends hf defined hce he kept
  refine ⟨fun hd => ?_, fun v d hv hd => ?_⟩
  · exact ended (State.readDesc_defined_of_none hd)
      (State.stageEffect_of_refusal (State.stageGate_of_unreadable (State.readDesc_of_none hd) n)) rfl
  have fields := State.readDesc_of_some hv hd
  have defined := State.readDesc_defined_of_fields fields
  have gate := State.stageGate_of_fields fields n
  cases hk : d.kind with
  | unused | reading | constant =>
    rw [hk] at gate
    exact ended defined (State.stageEffect_of_refusal gate) rfl
  | setpoint g =>
    rw [hk] at gate
    simp only
    split
    · next barred => exact ended defined (State.stageEffect_of_refusal (gate.trans (if_pos barred))) rfl
    next writes =>
    have passed := gate.trans (if_neg writes)
    rw [← writeReads_eq, show (if s.marked slot = true then WordName.staged else .live) = s.stageBase slot from rfl]
    refine ⟨fun hp unreadable => ?_, fun low high limits => ⟨fun m hm hb => ?_, fun x plain merged => ?_⟩⟩
    · exact ended defined (State.stageEffect_of_error passed (State.settleWrite_of_unreadable hp unreadable _ _ _)) rfl
    · exact ended defined (State.stageEffect_of_error passed (State.settleWrite_of_no_base limits hm hb)) rfl
    · have settled := State.settleWrite_of_value (base := s.stageBase slot) limits plain merged
      have admitted {y : Value} {clamped : Bool} {st : PointStatus} (hst : writtenStatus clamped = st)
          (hw : s.settleWrite slot d.policy (s.stageBase slot) sent mask = .ok (y, clamped)) :
          if (s.group g).state = .loading then ends s (writeReads d.policy mask (s.stageBase slot)) .busy
          else if s.marked slot = true then
            ends ((s.restage n slot).writeWord slot .staged y) (writeReads d.policy mask (s.stageBase slot)) st
          else if s.freeList = [] then ends s (writeReads d.policy mask (s.stageBase slot)) .poolFull
          else ends ((s.newStage n slot g).writeWord slot .staged y) (writeReads d.policy mask (s.stageBase slot)) st := by
        subst hst
        have effect := State.stageEffect_of_value passed hw
        split
        · next loading => exact ended defined (effect.trans (if_pos loading)) rfl
        next free =>
        have effect := effect.trans (if_neg free)
        split
        · next marked => exact ended defined (effect.trans (if_pos marked)) (s.ce_restage n slot n)
        next unmarked =>
        have effect := effect.trans (if_neg unmarked)
        split
        · next full => exact ended defined (effect.trans (if_pos full)) rfl
        · next room => exact ended defined (effect.trans (if_neg room)) (s.ce_newStage n slot g n)
      cases outcome : checkLimits d.policy low high x <;> rw [outcome] at settled
      · exact admitted rfl settled
      · exact admitted rfl settled
      · exact ended defined (State.stageEffect_of_error passed settled) rfl

/-- Settles O42: the gate, the limits and the mask. -/
theorem postCompletionOutcomes : Obligations.PostCompletionOutcomes := by
  intro s b n slot slot' sent mask r hf hce ends writes
  have ended {t : State} {reads : List WordName} {st : PointStatus} (defined : s.readDesc slot ≠ .undefinedCode)
      (he : s.postEffect n slot sent mask = ⟨st, reads, t⟩) (kept : (t.port n).ce = (s.port n).ce) : ends t reads st :=
    exec_post_ends hf defined hce he kept
  have written {policy : LimitPolicy} (defined : s.readDesc slot ≠ .undefinedCode)
      (passed : s.postGate n slot = .ok policy) : writes policy := by
    simp only [writes, ← writeReads_eq]
    refine ⟨fun hp unreadable => ?_, fun low high limits => ⟨fun m hm hb => ?_, fun x plain merged => ?_⟩⟩
    · exact ended defined (State.postEffect_of_error passed (State.settleWrite_of_unreadable hp unreadable _ _ _)) rfl
    · exact ended defined (State.postEffect_of_error passed (State.settleWrite_of_no_base limits hm hb)) rfl
    · have settled := State.settleWrite_of_value (base := .live) limits plain merged
      cases outcome : checkLimits policy low high x <;> rw [outcome] at settled
      · exact ended defined (State.postEffect_of_value passed settled) rfl
      · exact ended defined (State.postEffect_of_value passed settled) rfl
      · exact ended defined (State.postEffect_of_error passed settled) rfl
  refine ⟨fun hd => ?_, fun v d hv hd => ?_⟩
  · exact ended (State.readDesc_defined_of_none hd)
      (State.postEffect_of_refusal (State.postGate_of_unreadable (State.readDesc_of_none hd) n)) rfl
  have fields := State.readDesc_of_some hv hd
  have defined := State.readDesc_defined_of_fields fields
  have gate := State.postGate_of_fields fields n
  cases hk : d.kind with
  | unused | setpoint _ =>
    rw [hk] at gate
    exact ended defined (State.postEffect_of_refusal gate) rfl
  | reading | constant =>
    rw [hk] at gate
    simp only
    split
    · next barred => exact ended defined (State.postEffect_of_refusal (gate.trans (if_pos barred))) rfl
    · next allowed => exact written defined (gate.trans (if_neg allowed))

end Sys2Proof.Machine
end

section
/-! The completions of descriptor and map operations (R46, R48, R55 to R57, R60, R65), and those whose engine has been reset
(R17, R19). -/

namespace Sys2Proof.Machine

/-! ### One operation of a request (R152) -/

theorem State.singleHanded_of_waiting {s : State} {n : Port} {tag : Byte} (h : (s.port n).ce = .waiting (.single tag))
    (st : FrameStatus) (body : List Byte) : s.singleHanded n false st body = (s.respond n tag st body).serve n := by
  simp only [State.singleHanded, Bool.false_eq_true, if_false, h]

theorem State.markByte_eq (s : State) (p : Nat) :
    s.markByte p =
      match s.markOf p with
      | none => 0
      | some x => BitVec.ofNat 8 (128 + x.2.stager.val) := by
  have sum : ∀ m : Port, (0x80 : Byte) ||| BitVec.ofNat 8 m.val = BitVec.ofNat 8 (128 + m.val) := by decide
  unfold State.markByte
  cases s.markOf p with
  | none => rfl
  | some x => exact sum _

theorem State.descAnswer_of_readable {s : State} {slot : Nat} {d l h : Value} (hd : (s.word slot .desc).yield = some d)
    (hl : (s.word slot .low).yield = some l) (hh : (s.word slot .high).yield = some h) :
    s.descAnswer slot = (.ok, valueBytes d ++ valueBytes l ++ valueBytes h ++ [s.markByte slot]) := by
  simp only [State.descAnswer, hd, hl, hh]

theorem State.descAnswer_of_unreadable {s : State} {slot : Nat}
    (h : (s.word slot .desc).yield = none ∨ (s.word slot .low).yield = none ∨ (s.word slot .high).yield = none) :
    s.descAnswer slot = (.fault, []) := by
  unfold State.descAnswer
  split
  · next hd hl hh =>
    rw [hd, hl, hh] at h
    rcases h with h | h | h <;> cases h
  · rfl

/-- Settles O44: the three words and the mark, or the map word. -/
theorem descAndMapReadCompletions : Obligations.DescAndMapReadCompletions := by
  intro s b n slot tag hce
  have waits (reads : List WordName) : ((s.endCompletion s b (.ce n) slot reads).port n).ce = .waiting (.single tag) :=
    (State.ce_endCompletion _ _ _ _ _ _ _).trans hce
  refine ⟨fun hf => ?_, fun hf => ?_⟩
  · intro ends
    have ended {st : FrameStatus} {body : List Byte} (answer : s.descAnswer slot = (st, body)) : ends st body := by
      show exec _ _ = _
      rw [exec_descReadCompletion hf, State.descReadDone, answer, State.singleHanded_of_waiting (waits _)]
    refine ⟨fun d l h hd hl hh => ?_, fun unreadable => ended (State.descAnswer_of_unreadable unreadable)⟩
    refine ended ((State.descAnswer_of_readable hd hl hh).trans ?_)
    rw [State.markByte_eq] <;> rfl
  · intro ends
    have ended {st : FrameStatus} {body : List Byte} (answer : mapAnswer (s.word slot .live) = (st, body)) :
        ends st body := by
      show exec _ _ = _
      rw [exec_mapReadCompletion hf, State.mapReadDone, answer, State.singleHanded_of_waiting (waits _)]
    exact ⟨fun v hv => ended (by simp only [mapAnswer, hv]), fun hv => ended (by simp only [mapAnswer, hv])⟩

/-- Settles O45: the stage removed and the record written, or BUSY; the map word and the target's cache. -/
theorem descAndMapWriteCompletions : Obligations.DescAndMapWriteCompletions := by
  intro s b n slot tag hce
  refine ⟨fun desc low high hf => ?_, fun target page entry hf => ?_⟩
  · intro record ends
    have ended {st : FrameStatus} {t : State} (effect : s.descWriteEffect slot desc low high = (st, t))
        (kept : (t.port n).ce = (s.port n).ce) : ends t st := by
      show exec _ _ = _
      rw [exec_descWriteCompletion hf, State.descWriteDone, effect,
        State.singleHanded_of_waiting (s := t.grantNext b) (kept.trans hce)]
    refine ⟨fun unmarked => ?_, fun g e marked => ?_⟩
    · exact ended (by simp only [State.descWriteEffect, unmarked]; rfl) rfl
    · split
      · next loading => exact ended (by simp only [State.descWriteEffect, marked, if_pos loading]) rfl
      · next free =>
        refine ended (by simp only [State.descWriteEffect, marked, if_neg free]; rfl) ?_
        show ((s.removeStage g e).port n).ce = _
        rw [State.removeStage_frame]
        rfl
  · intro t
    have kept : (((t.updPort target (PortState.invalidate page)).grantNext b).port n).ce = .waiting (.single tag) := by
      show ((t.updPort target (PortState.invalidate page)).port n).ce = _
      rw [State.port_updPort]
      split <;> exact hce
    rw [exec_mapWriteCompletion hf, State.mapWriteDone, State.singleHanded_of_waiting kept]
    rfl

/-! ### Translation fills (R55 to R57) -/

/-- Settles O46: the map word as read, the insertion, and the right that the access needs. -/
theorem mapFillCompletionOutcomes : Obligations.MapFillCompletionOutcomes := by
  intro s b n slot l page inserts r a rest hf hce todo t r1 refused
  have waits : (t.port n).ce = .waiting (.fill r page) := (State.ce_endCompletion _ _ _ _ _ _ _).trans hce
  have view : (t.port n).cfg = (s.port n).cfg := State.cfg_endCompletion _ _ _ _ _ _ _
  have handed : exec (.mapFillCompletion b) s = .next (t.fillHanded n l inserts (s.word slot .live)) := by
    rw [exec_mapFillCompletion hf, State.mapFillDone]
    rfl
  refine ⟨fun hv => ?_, fun v hv => ⟨fun absent => ?_, fun present => ?_⟩⟩
  · show exec _ _ = _
    rw [handed]
    simp only [State.fillHanded, waits, hv]
    rfl
  · show exec _ _ = _
    rw [handed]
    simp only [State.fillHanded, waits, hv, decodeEntry, show entryPresent v = false from absent]
    rfl
  · intro e u target right
    have filled : t.insertFill n l inserts ⟨e.page, e.rights⟩ = u := by
      simp only [State.insertFill, view]
      rfl
    have used : exec (.mapFillCompletion b) s = .next ((u.useEntry n r1 ⟨e.page, e.rights⟩).serve n) := by
      rw [handed, ← filled]
      simp only [State.fillHanded, waits, hv, decodeEntry, show entryPresent v = true from present, if_true]
      rfl
    have bit : a.rightBit = right := by cases a <;> rfl
    have entry : u.useEntry n r1 ⟨e.page, e.rights⟩ =
        if e.rights.getLsbD right then u.askAccess n r1 a target
        else u.goOn n (r1.settle (.refused .denied r1.corrected)) := by
      rw [State.useEntry, show r1.todo = a :: rest from todo, ← bit] <;> rfl
    split
    · next granted =>
      rw [used, entry, if_pos granted]
      have busy : ((u.askAccess n r1 a target).port n).ce ≠ .idle := by
        have : ((u.askAccess n r1 a target).port n).ce = .waiting (.access r1 target) :=
          congrArg PortState.ce (State.port_updPort_self u n (fun p => { p with ce := .waiting (.access r1 target) }))
        rw [this]
        exact nofun
      rw [State.serve_of_stay (.inl busy)]
      rfl
    · next denied =>
      show exec _ _ = _
      rw [used, entry, if_neg denied]
      rfl

/-! ### Dropped results (R17, R19) -/

/-- What a requester alone holds back. -/
theorem State.find?_heldBack_of_filter {s : State} {r : Requester} {op : BankOp} (held : s.heldBack.filter (fun op => op.who == r) = [op]) :
    s.heldBack.find? (fun op => op.who == r) = some op := by
  rw [← List.head?_filter, held, List.head?_cons]

/-- Settles O50: each completion with its effects, and what its engine held back placed. -/
theorem droppedOperationKeepsItsEffects : Obligations.DroppedOperationKeepsItsEffects := by
  refine ⟨fun s op there => State.place_of_outstanding s op ((State.outstanding_iff s op.who).2 there), fun s r =>
    ⟨fun none_held => ?_, fun op held => ?_⟩, fun s b n slot act hf admitted => ?_⟩
  · have absent : s.heldBack.find? (fun op => op.who == r) = none := by
      simpa using none_held
    simp only [State.release, absent]
  · simp only [State.release, State.find?_heldBack_of_filter held]
    rfl
  · have defined : s.readDesc slot ≠ .undefinedCode := fun hu => by
      obtain ⟨v, hv, hn⟩ := (s.readDesc_undefined_iff slot).1 hu
      obtain ⟨d, hd⟩ := admitted v hv
      rw [hn] at hd
      cases hd
    cases act with
    | read prefer => exact (exec_readCompletion hf).trans (unlessUndefined_of_defined defined _)
    | stage v m => exact (exec_stageCompletion hf).trans (unlessUndefined_of_defined defined _)
    | post v m => exact (exec_postCompletion hf).trans (unlessUndefined_of_defined defined _)
    | descRead => exact exec_descReadCompletion hf
    | descWrite d l h => exact exec_descWriteCompletion hf
    | mapFill l inserts => exact exec_mapFillCompletion hf
    | mapRead => exact exec_mapReadCompletion hf
    | mapWrite target page e => exact exec_mapWriteCompletion hf
    | transfer | scrub => trivial

end Sys2Proof.Machine
end

section
/-! The fields of a descriptor word, limits and merged values (R31, R34, R43); stage marks and the moves of the pool (R69 to R82). -/

namespace Sys2Proof.Machine

/-! ### Descriptor words (R31) -/

theorem descReservedClear_iff (v : Value) :
    descReservedClear v = true ↔ v.extractLsb' 2 2 = 0 ∧ v.extractLsb' 18 14 = 0 := by
  rw [descReservedClear, Bool.and_eq_true, beq_iff_eq, beq_iff_eq]

theorem descGroup_eq_zero_iff (v : Value) : descGroup v = 0 ↔ v.extractLsb' 8 8 = 0 :=
  ⟨fun h => BitVec.eq_of_toNat_eq h, fun h => by rw [descGroup, h]; rfl⟩

/-- The code of a kind: 2 bits. -/
theorem two_bits : ∀ c : BitVec 2, c = 0 ∨ c = 1 ∨ c = 2 ∨ c = 3 := by decide

/-- The kind that a word names, by its code and its group. -/
theorem decodeKind_eq_some (v : Value) (k : PointKind) :
    decodeKind v = some k ↔
      match k with
      | .unused => v.extractLsb' 0 2 = 0 ∧ v.extractLsb' 8 8 = 0
      | .reading => v.extractLsb' 0 2 = 1 ∧ v.extractLsb' 8 8 = 0
      | .setpoint g => v.extractLsb' 0 2 = 2 ∧ (v.extractLsb' 8 8).toNat = g.val + 1
      | .constant => v.extractLsb' 0 2 = 3 ∧ v.extractLsb' 8 8 = 0 := by
  have group : descGroup v = (v.extractLsb' 8 8).toNat := rfl
  have code : descKindBits v = v.extractLsb' 0 2 := rfl
  rcases two_bits (v.extractLsb' 0 2) with h | h | h | h
  case inr.inr.inl =>
    have named : decodeKind v = (groupOfNat (descGroup v)).map .setpoint := if_pos (code.trans h)
    rw [named]
    cases k with
    | setpoint g =>
      simp only [Option.map_eq_some_iff, PointKind.setpoint.injEq, exists_eq_right, groupOfNat_eq_some, h, true_and]
      exact eq_comm
    | _ => simp [h]
  all_goals
    have not_setpoint : ¬descKindBits v = 2 := by rw [code, h]; decide
    unfold decodeKind
    rw [if_neg not_setpoint]
    simp only [ne_eq, descGroup_eq_zero_iff, code, h]
    by_cases zero : v.extractLsb' 8 8 = 0
    · cases k <;> simp [zero]
    · cases k <;> simp [zero]

theorem decodePolicy_eq_some (v : Value) (p : LimitPolicy) :
    decodePolicy v = some p ↔
      match p with
      | .none => v.extractLsb' 16 2 = 0
      | .refuse => v.extractLsb' 16 2 = 1
      | .clamp => v.extractLsb' 16 2 = 2 := by
  have code : descPolicyBits v = v.extractLsb' 16 2 := rfl
  unfold decodePolicy
  rw [code]
  rcases two_bits (v.extractLsb' 16 2) with h | h | h | h <;> rw [h] <;> cases p <;> decide

theorem decodeDesc_eq_some (v : Value) (d : Descriptor) :
    decodeDesc v = some d ↔
      descReservedClear v = true ∧ decodeKind v = some d.kind ∧ decodePolicy v = some d.policy ∧
        d.writers = descWriters v := by
  obtain ⟨kind, writers, policy⟩ := d
  unfold decodeDesc
  cases descReservedClear v with
  | false => simp
  | true =>
    cases decodeKind v with
    | none => simp
    | some k =>
      cases decodePolicy v with
      | none => simp
      | some p =>
        simp only [if_true, Option.some.injEq, Descriptor.mk.injEq, true_and]
        grind

/-! ### Limits and merged values (R34, R43) -/

/-- A merged value, bit by bit. -/
theorem getLsbD_mergeValue (mask v base : Value) {i : Nat} (hi : i < 32) :
    (mergeValue mask v base).getLsbD i = if mask.getLsbD i then v.getLsbD i else base.getLsbD i := by
  simp only [mergeValue, BitVec.getLsbD_or, BitVec.getLsbD_and, BitVec.getLsbD_not, hi, decide_true, Bool.true_and]
  cases mask.getLsbD i <;> simp

/-- Settles O40: the fields, the signed comparisons, the bits. -/
theorem limitsAndMerge : Obligations.LimitsAndMerge := by
  refine ⟨fun v d => ?_, fun _ _ _ => rfl, fun low high v => ?_, fun low high v => ?_,
    fun mask v base i hi => getLsbD_mergeValue mask v base hi⟩
  · obtain ⟨kind, writers, policy⟩ := d
    rw [decodeDesc_eq_some, descReservedClear_iff, decodeKind_eq_some, decodePolicy_eq_some, descWriters]
    constructor
    · rintro ⟨⟨low, high⟩, k, p, w⟩
      exact ⟨low, high, w, k, p⟩
    · rintro ⟨low, high, w, k, p⟩
      exact ⟨⟨low, high⟩, k, p, w⟩
  · simp only [checkLimits, Bool.or_eq_true, BitVec.slt_iff_toInt_lt]
    by_cases inside : low.toInt ≤ v.toInt ∧ v.toInt ≤ high.toInt
    · rw [if_pos inside, if_neg (by omega)]
    · rw [if_neg inside, if_pos (by omega)]
  · simp only [checkLimits, BitVec.slt_iff_toInt_lt]

/-! ### Stage marks (R69) -/

theorem State.marked_iff (s : State) (p : Nat) : s.marked p = true ↔ ∃ g, ∃ e ∈ (s.group g).list, e.point = p := by
  rw [State.marked, Option.isSome_iff_ne_none, ne_eq, State.markOf_eq_none_iff]
  push Not
  rfl

/-- A point has one entry, on one list (R68). -/
theorem LoadSound.markOf_eq {s : State} (sound : LoadSound s) {g : GroupId} {e : StageEntry} (he : e ∈ (s.group g).list) :
    s.markOf e.point = some (g, e) := by
  have distinct := List.nodup_flatMap.1 (List.Nodup.of_map _ sound.points)
  cases mark : s.markOf e.point with
  | none => exact absurd rfl ((s.markOf_eq_none_iff _).1 mark g e he)
  | some x =>
    obtain ⟨g', e'⟩ := x
    obtain ⟨he', same⟩ := State.markOf_eq_some mark
    have entry : e' = e :=
      List.inj_on_of_nodup_map sound.points ((s.mem_inUse _).2 ⟨g', he'⟩) ((s.mem_inUse _).2 ⟨g, he⟩) same
    subst entry
    have group : g' = g := by
      by_contra differ
      have apart : Std.Symm (Function.onFun List.Disjoint fun g => (s.group g).list) := ⟨fun _ _ h => h.symm⟩
      exact distinct.2.forall (List.mem_finRange g') (List.mem_finRange g) differ he' he
    rw [group]

/-! ### The moves of the pool (R72, R73, R79, R81, R82) -/

theorem State.newStage_of_free {s : State} {e : Nat} {rest : List Nat} (h : s.freeList = e :: rest) (n : Port) (p : Nat)
    (g : GroupId) :
    s.newStage n p g =
      if rest.length + 1 = s.dev.poolLow.toNat then
        ({ s with freeList := rest }.updGroup g (GroupRec.join ⟨e, p, n⟩)).raiseAll .poolLow
      else { s with freeList := rest }.updGroup g (GroupRec.join ⟨e, p, n⟩) := by
  have crossing : (s.dev.poolLow.toNat ≤ rest.length + 1 ∧ rest.length < s.dev.poolLow.toNat) ↔
      rest.length + 1 = s.dev.poolLow.toNat := by omega
  simp only [State.newStage, h, crossing]

theorem State.group_newStage {s : State} {e : Nat} {rest : List Nat} (h : s.freeList = e :: rest) (n : Port) (p : Nat)
    (g k : GroupId) :
    (s.newStage n p g).group k = if g = k then (s.group k).join ⟨e, p, n⟩ else s.group k := by
  rw [State.newStage_of_free h]
  have joined := State.group_updGroup { s with freeList := rest } g k (GroupRec.join ⟨e, p, n⟩)
  split <;> exact joined

/-- The removal of one stage, by what it leaves of the list. -/
theorem State.removeStage_eq (s : State) (g : GroupId) (e : StageEntry) :
    s.removeStage g e =
      if (s.group g).list.filter (fun x => x.point != e.point) = [] then
        { s with freeList := s.freeList ++ [e.entry], loadQueue := s.loadQueue.filter (fun q => q != g) }.setGroup g
          { s.group g with state := .empty, list := [] }
      else { s with freeList := s.freeList ++ [e.entry] }.setGroup g
        { s.group g with list := (s.group g).list.filter (fun x => x.point != e.point) } := by
  unfold State.removeStage
  cases (s.group g).list.filter (fun x => x.point != e.point) with
  | nil => exact (if_pos rfl).symm
  | cons x more => exact (if_neg nofun).symm

/-- Settles O43: marks by the entries in use, and each move of the pool. -/
theorem stagePoolMoves : Obligations.StagePoolMoves := by
  refine ⟨fun s p => ⟨s.marked_iff p, s.markOf_eq_none_iff p, fun g e h => State.markOf_eq_some h, ?_⟩, ?_, ?_,
    fun s g => rfl, fun s g e => ?_⟩
  · rintro sound g e he rfl
    exact sound.markOf_eq he
  · intro s n p g e rest free t
    have eq := State.newStage_of_free free n p g
    refine ⟨?_, ?_, fun h hne => ?_, fun m => ?_, ?_⟩
    · show (s.newStage n p g).freeList = rest
      rw [eq]
      split <;> rfl
    · show (s.newStage n p g).group g = _
      rw [State.group_newStage free, if_pos rfl]
      rfl
    · show (s.newStage n p g).group h = _
      rw [State.group_newStage free, if_neg hne.symm]
    · show (s.newStage n p g).port m = _
      rw [eq]
      split
      · exact State.port_raiseAll _ _ _
      · rfl
    · show s.newStage n p g =
        { s with freeList := rest, groups := (s.newStage n p g).groups, ports := (s.newStage n p g).ports }
      rw [eq]
      split <;> rfl
  · intro s n p g e mark
    simp only [State.restage, mark]
    rfl
  · exact s.removeStage_eq g e

end Sys2Proof.Machine
end

section
/-! What the end of a completion leaves: words repaired, findings logged and raised, the bank's next grant (R4 to R6, R10, R22,
R114 to R118). -/

namespace Sys2Proof.Machine

/-! ### Findings (R114 to R118) -/

/-- A word read with an error of the named severity. -/
def State.foundAt (z : State) (slot : Nat) (bad : Bool) (w : WordName) : Bool :=
  match z.word slot w with
  | .clean _ => false
  | .correctable _ => !bad
  | .uncorrectable => bad

/-- The log after a word has been read. -/
def State.logged (z : State) (src : Requester) (slot : Nat) (l : ErrorLog) (w : WordName) : ErrorLog :=
  match z.word slot w with
  | .clean _ => l
  | .correctable _ => { l with corrected := some { slot := slot, word := w, source := src }, updated := true }
  | .uncorrectable =>
    if l.uncorrectable = none then
      { l with uncorrectable := some { slot := slot, word := w, source := src }, updated := true }
    else l

theorem ErrorLog.take_uncorrectable (l : ErrorLog) (e : LogEntry) :
    l.take { entry := e, correction := false } =
      if l.uncorrectable = none then { l with uncorrectable := some e, updated := true } else l := by
  unfold ErrorLog.take
  cases h : l.uncorrectable <;> simp

/-- A finding raised before others of its kind is raised once. -/
theorem or_raised (x c u : BitVec 11) (a b : Bool) :
    x ||| c ||| (if a then c else 0) ||| (if b then u else 0) = x ||| c ||| (if b then u else 0) ∧
      x ||| u ||| (if a then c else 0) ||| (if b then u else 0) = x ||| (if a then c else 0) ||| u := by
  constructor <;> refine BitVec.eq_of_getLsbD_eq fun i _ => ?_ <;> cases a <;> cases b <;>
    simp only [if_true, if_false, Bool.false_eq_true, BitVec.getLsbD_or, BitVec.getLsbD_zero, BitVec.ofNat_eq_ofNat,
      Bool.or_false] <;> grind

namespace State

variable (z : State) (src : Requester) (slot : Nat)

/-- The findings of the words read, word by word: the log and the sticky flags of each port. -/
theorem takeFindings_findings (ws : List WordName) (t : State) :
    (t.takeFindings (z.findings src slot ws)).log = ws.foldl (z.logged src slot) t.log ∧
      ∀ n, (t.takeFindings (z.findings src slot ws)).port n = { t.port n with
        sticky := (t.port n).sticky ||| (if ws.any (z.foundAt slot false) then EventKind.eccCorrected.bit else 0)
          ||| (if ws.any (z.foundAt slot true) then EventKind.eccUncorrectable.bit else 0) } := by
  induction ws generalizing t with
  | nil => exact ⟨rfl, fun n => by simp [findings, takeFindings]⟩
  | cons w ws ih =>
    rw [List.foldl_cons, List.any_cons, List.any_cons]
    cases hw : z.word slot w with
    | clean v =>
      have skip : z.findings src slot (w :: ws) = z.findings src slot ws := by simp only [findings, List.filterMap_cons, hw]
      simp only [skip, logged, foundAt, hw, Bool.false_or]
      exact ih t
    | correctable v =>
      have take : z.findings src slot (w :: ws) =
          ⟨⟨slot, w, src⟩, true⟩ :: z.findings src slot ws := by simp only [findings, List.filterMap_cons, hw]
      obtain ⟨log, port⟩ := ih (t.takeFinding ⟨⟨slot, w, src⟩, true⟩)
      simp only [take, takeFindings, List.foldl_cons, logged, foundAt, hw, Bool.not_false, Bool.not_true, Bool.true_or,
        Bool.false_or]
      refine ⟨log, fun n => (port n).trans ?_⟩
      have raised : (t.takeFinding ⟨⟨slot, w, src⟩, true⟩).port n = (t.port n).raise .eccCorrected := port_raiseAll _ _ _
      rw [raised]
      simp only [PortState.raise, (or_raised _ _ _ _ _).1, if_true]
    | uncorrectable =>
      have take : z.findings src slot (w :: ws) =
          ⟨⟨slot, w, src⟩, false⟩ :: z.findings src slot ws := by simp only [findings, List.filterMap_cons, hw]
      obtain ⟨log, port⟩ := ih (t.takeFinding ⟨⟨slot, w, src⟩, false⟩)
      simp only [take, takeFindings, List.foldl_cons, logged, foundAt, hw, Bool.true_or, Bool.false_or]
      refine ⟨log.trans ?_, fun n => (port n).trans ?_⟩
      · rw [← ErrorLog.take_uncorrectable]
        rfl
      have raised : (t.takeFinding ⟨⟨slot, w, src⟩, false⟩).port n = (t.port n).raise .eccUncorrectable :=
        port_raiseAll _ _ _
      rw [raised]
      simp only [PortState.raise, (or_raised _ _ _ _ _).2, if_true]

theorem log_takeFindings_findings (ws : List WordName) (t : State) :
    (t.takeFindings (z.findings src slot ws)).log = ws.foldl (z.logged src slot) t.log :=
  (takeFindings_findings z src slot ws t).1

theorem port_takeFindings_findings (ws : List WordName) (t : State) (n : Port) :
    (t.takeFindings (z.findings src slot ws)).port n = { t.port n with
      sticky := (t.port n).sticky ||| (if ws.any (z.foundAt slot false) then EventKind.eccCorrected.bit else 0)
        ||| (if ws.any (z.foundAt slot true) then EventKind.eccUncorrectable.bit else 0) } :=
  (takeFindings_findings z src slot ws t).2 n

/-- Findings change the log and the ports. -/
theorem takeFindings_frame (t : State) (fs : List Finding) :
    t.takeFindings fs = { t with log := (t.takeFindings fs).log, ports := (t.takeFindings fs).ports } := by
  obtain ⟨l, p, e⟩ := takeFindings_eq t fs
  rw [e]

/-! ### Repairs (R6) -/

theorem repairOnAccess_frame (t : State) (ws : List WordName) :
    t.repairOnAccess slot ws = { t with store := (t.repairOnAccess slot ws).store } := by
  obtain ⟨st, e⟩ := repairOnAccess_eq t slot ws
  rw [e]

theorem word_repairOnAccess {s : State} (wf : Store.wf s.store = true) (ws : List WordName) (i : Nat) (w : WordName) :
    (s.repairOnAccess slot ws).word i w =
      if s.dev.repair = .onAccess ∧ i = slot ∧ w ∈ ws then (s.word i w).repaired else s.word i w := by
  unfold repairOnAccess
  cases s.dev.repair with
  | onAccess =>
    simp only [word_repairWords _ _ _ _ _ wf, true_and, eq_comm]
  | scrubOnly => simp

theorem endCompletion_frame (s : State) (b : BankId) (ws : List WordName) :
    z.endCompletion s b src slot ws = { s with
      store := (z.endCompletion s b src slot ws).store, log := (z.endCompletion s b src slot ws).log
      ports := (z.endCompletion s b src slot ws).ports, banks := (z.endCompletion s b src slot ws).banks } := by
  obtain ⟨st, repaired⟩ := repairOnAccess_eq s slot ws
  obtain ⟨l, p, found⟩ := takeFindings_eq (s.repairOnAccess slot ws) (z.findings src slot ws)
  rw [endCompletion, found, repaired]
  rfl

end State

theorem Stored.repaired_eq (x : Stored) :
    x.repaired =
      match x with
      | .correctable v => .clean v
      | y => y := by cases x <;> rfl

/-- Settles O38: words, writes, grants, and the end of a completion. -/
theorem completionEnd : Obligations.CompletionEnd := by
  refine ⟨fun v => ⟨⟨rfl, rfl, rfl⟩, ⟨rfl, rfl, rfl⟩, rfl, rfl, rfl⟩, fun s slot w v wf => ?_, fun s b => rfl,
    fun z s b src slot reads wf => ?_⟩
  · intro t
    refine ⟨fun i x => ?_, State.wf_writeWord s slot w v wf, rfl⟩
    refine (State.word_writeWord s slot i w x v wf).trans ?_
    simp only [eq_comm]
  · intro t found
    refine ⟨fun i w => ?_, State.log_takeFindings_findings z src slot reads _ |>.trans ?_,
      fun n => State.port_takeFindings_findings z src slot reads _ n |>.trans ?_, ?_, fun c hc => ?_, ?_⟩
    · have read : t.word i w = (s.repairOnAccess slot reads).word i w := State.takeFindings_word _ _ _ _
      rw [read, State.word_repairOnAccess slot wf, Stored.repaired_eq] <;> rfl
    · rw [State.repairOnAccess_log]
      rfl
    · rw [State.repairOnAccess_port]
      rfl
    · refine (State.bank_grantNext _ b b).trans ((if_pos rfl).trans ?_)
      rw [State.takeFindings_bank, State.takeFindings_dev, State.repairOnAccess_bank, State.repairOnAccess_dev]
    · refine (State.bank_grantNext _ b c).trans ((if_neg hc.symm).trans ?_)
      rw [State.takeFindings_bank, State.repairOnAccess_bank]
    · exact z.endCompletion_frame src slot s b reads

end Sys2Proof.Machine
end

section
/-! Transfers (R80, R99, R100, R103): the words, the log and the counts after one, and the requests that it brings. -/

namespace Sys2Proof.Machine

namespace State

/-! ### The words of a transfer (R99) -/

/-- LIVE has taken STAGED's value, STAGED is repaired, and the finding is logged and raised: a transfer before the load engine
takes its result. -/
def transferRead (s : State) (slot : Nat) : State :=
  ((s.copyStaged slot).repairOnAccess slot [.staged]).takeFindings (s.findings .load slot [.staged])

theorem transferDone_eq (s : State) (b : BankId) (slot : Nat) :
    s.transferDone b slot =
      (((s.transferRead slot).transferred slot (s.word slot .staged).yield.isNone).1.grantNext b).placeAll
        ((s.transferRead slot).transferred slot (s.word slot .staged).yield.isNone).2 := rfl

theorem copyStaged_frame (s : State) (slot : Nat) : s.copyStaged slot = { s with store := (s.copyStaged slot).store } := by
  unfold copyStaged
  split <;> rfl

theorem transferRead_frame (s : State) (slot : Nat) :
    s.transferRead slot = { s with
      store := (s.transferRead slot).store, log := (s.transferRead slot).log, ports := (s.transferRead slot).ports } := by
  rw [transferRead, takeFindings_frame, repairOnAccess_frame, copyStaged_frame]

section Words

variable {s : State} {slot : Nat}

theorem wf_copyStaged (wf : Store.wf s.store = true) : Store.wf (s.copyStaged slot).store = true := by
  unfold copyStaged
  split
  · exact wf_writeWord _ _ _ _ wf
  · exact wf

theorem word_copyStaged (wf : Store.wf s.store = true) (i : Nat) (w : WordName) :
    (s.copyStaged slot).word i w =
      if i = slot ∧ w = .live then
        (match (s.word slot .staged).yield with
          | some v => .clean v
          | none => s.word i w)
      else s.word i w := by
  unfold copyStaged
  cases (s.word slot .staged).yield with
  | none => simp
  | some v => simp only [word_writeWord _ _ _ _ _ _ wf, @eq_comm _ slot i, @eq_comm _ WordName.live w]

theorem word_transferRead (wf : Store.wf s.store = true) (i : Nat) (w : WordName) :
    (s.transferRead slot).word i w =
      if s.dev.repair = .onAccess ∧ i = slot ∧ w = .staged then (s.word i w).repaired
      else (s.copyStaged slot).word i w := by
  have dev : (s.copyStaged slot).dev = s.dev := by rw [copyStaged_frame]
  rw [transferRead, takeFindings_word, word_repairOnAccess slot (wf_copyStaged wf), dev]
  simp only [List.mem_singleton]
  split
  · next h =>
    rw [word_copyStaged wf, if_neg (by rw [h.2.2]; simp)]
  · rfl

theorem word_transferRead_live (wf : Store.wf s.store = true) :
    (s.transferRead slot).word slot .live =
      match (s.word slot .staged).yield with
      | some v => .clean v
      | none => s.word slot .live := by
  rw [word_transferRead wf, if_neg (by simp), word_copyStaged wf, if_pos ⟨rfl, rfl⟩]

theorem word_transferRead_staged (wf : Store.wf s.store = true) :
    (s.transferRead slot).word slot .staged =
      if s.dev.repair = .onAccess then (s.word slot .staged).repaired else s.word slot .staged := by
  rw [word_transferRead wf, word_copyStaged wf, if_neg (c := slot = slot ∧ WordName.staged = .live) (by simp)]
  simp

theorem word_transferRead_of_ne (wf : Store.wf s.store = true) {i : Nat} {w : WordName}
    (h : i ≠ slot ∨ (w ≠ .live ∧ w ≠ .staged)) : (s.transferRead slot).word i w = s.word i w := by
  rw [word_transferRead wf, word_copyStaged wf, if_neg, if_neg]
  · rintro ⟨rfl, rfl⟩
    simp at h
  · rintro ⟨-, rfl, rfl⟩
    simp at h

end Words

theorem log_transferRead (s : State) (slot : Nat) :
    (s.transferRead slot).log = s.logged .load slot s.log .staged := by
  rw [transferRead, log_takeFindings_findings, repairOnAccess_log, copyStaged_frame]
  rfl

/-- The sticky flag that the finding of one word raises. -/
def eccBit (x : Stored) : BitVec 11 :=
  match x with
  | .clean _ => 0
  | .correctable _ => EventKind.eccCorrected.bit
  | .uncorrectable => EventKind.eccUncorrectable.bit

theorem port_transferRead (s : State) (slot : Nat) (n : Port) :
    (s.transferRead slot).port n =
      { s.port n with sticky := (s.port n).sticky ||| eccBit (s.word slot .staged) } := by
  have same : (s.copyStaged slot).port n = s.port n := by rw [copyStaged_frame]; rfl
  rw [transferRead, port_takeFindings_findings, repairOnAccess_port, same]
  cases hw : s.word slot .staged <;> simp [foundAt, hw, eccBit]

/-! ### The head entry returned (R80) -/

theorem entryDone_of_cons {s : State} {g : GroupId} {e : StageEntry} {rest : List StageEntry}
    (h : (s.group g).list = e :: rest) (p : Nat) (skip : Bool) :
    s.entryDone g p skip =
      { s with load := s.load.after p skip, freeList := s.freeList ++ [e.entry] }.setGroup g
        { s.group g with list := rest } := by
  have same : (({ s with load := s.load.after p skip } : State).group g).list = e :: rest := h
  unfold entryDone returnHead
  rw [same]
  rfl

/-! ### Requests placed together (R20, R22; log 7) -/

/-- One request is placed as it comes. -/
theorem placeAll_one (s : State) (op : BankOp) : s.placeAll [op] = s.place op := by
  have pick (b : BankId) : [op].filter (fun op => bankOf op.slot == b) = if bankOf op.slot = b then [op] else [] := by
    simp only [List.filter_singleton, Bool.cond_eq_ite, beq_iff_eq]
  simp only [placeAll, pick, List.foldl_cons, List.foldl_nil]
  have banks : ∀ c : BankId, c = 0 ∨ c = 1 ∨ c = 2 ∨ c = 3 := by decide
  rcases banks (bankOf op.slot) with h | h | h | h <;> rw [h] <;> rfl

theorem grantNext_congr {s u : State} (banks : u.banks = s.banks) (dev : u.dev = s.dev) (b : BankId) :
    (u.grantNext b).banks = (s.grantNext b).banks := by
  cases s
  cases u
  cases banks
  cases dev
  rfl

end State

/-- Settles O47: LIVE, the count and the free list, and the next entry's TRANSFER. -/
theorem transferCompletionGoesOn : Obligations.TransferCompletionGoesOn := by
  intro s b slot dropped g e e' more hf engine list wf
  have frame := s.transferRead_frame slot
  generalize hr : s.transferRead slot = r at frame
  have engine' : r.engine = some g := by rw [frame]; exact engine
  have group (h : GroupId) : r.group h = s.group h := by rw [frame]; rfl
  have list' : (r.group g).list = e :: e' :: more := (congrArg GroupRec.list (group g)).trans list
  have done := State.entryDone_of_cons list' slot (s.word slot .staged).yield.isNone
  have next : ((r.entryDone g slot (s.word slot .staged).yield.isNone).group g).list = e' :: more := by
    rw [done, State.group_setGroup_self]
  have taken : r.transferred slot (s.word slot .staged).yield.isNone =
      (r.entryDone g slot (s.word slot .staged).yield.isNone, [transferOp e']) := by
    rw [State.transferred_of_some engine', next]
  generalize hu : r.entryDone g slot (s.word slot .staged).yield.isNone = u at done next taken
  have result : exec (.transferCompletion b) s = .next ((u.grantNext b).place (transferOp e')) := by
    rw [exec_transferCompletion hf, State.transferDone_eq, hr, taken, State.placeAll_one]
  subst done
  have free : r.freeList = s.freeList := by rw [frame]
  have queue : r.loadQueue = s.loadQueue := by rw [frame]
  have load : r.load = s.load := by rw [frame]
  have banks : r.banks = s.banks := by rw [frame]
  have held : r.heldBack = s.heldBack := by rw [frame]
  have dev : r.dev = s.dev := by rw [frame]
  subst hr
  have placed := State.place_congr (transferOp e') (s := s.grantNext b)
    (u := ({ s.transferRead slot with
      load := (s.transferRead slot).load.after slot (s.word slot .staged).yield.isNone
      freeList := (s.transferRead slot).freeList ++ [e.entry] }.setGroup g
        { (s.transferRead slot).group g with list := e' :: more }).grantNext b)
    (State.grantNext_congr banks dev b) held
  refine ⟨_, result, ?free, State.group_setGroup_self _ _ _ |>.trans ?group, fun h hne => ?other, engine', queue,
    fun v hv => ⟨?taken, ?transferred⟩, fun hn => ⟨?left, ?skipped⟩, fun i w apart => ?words, ?staged,
    ⟨?log, fun n => ?port⟩, placed, ?frame⟩
  case free => exact congrArg (· ++ [e.entry]) free
  case group => rw [group]
  case other => exact (State.group_setGroup_of_ne _ _ _ _ hne.symm).trans (group h)
  case taken =>
    refine (State.word_transferRead_live wf).trans ?_
    rw [hv]
  case transferred =>
    show (s.transferRead slot).load.after slot (s.word slot .staged).yield.isNone = _
    rw [hv, load]
    rfl
  case left =>
    refine (State.word_transferRead_live wf).trans ?_
    rw [hn]
  case skipped =>
    show (s.transferRead slot).load.after slot (s.word slot .staged).yield.isNone = _
    rw [hn, load]
    rfl
  case words => exact State.word_transferRead_of_ne wf apart
  case staged => exact State.word_transferRead_staged wf
  case log => exact s.log_transferRead slot
  case port => exact s.port_transferRead slot n
  case frame => rw [frame]; rfl

end Sys2Proof.Machine
end

section
/-! The last transfer of a load (R99, R100, R103): the record, the watchers, the holds, the next load, and the requests that all
of these bring. -/

namespace Sys2Proof.Machine

namespace State

/-! ### Requests placed together (R20, R22; log 7) -/

theorem foldl_place_frame (ops : List BankOp) (s : State) :
    ops.foldl place s = { s with banks := (ops.foldl place s).banks, heldBack := (ops.foldl place s).heldBack } := by
  induction ops generalizing s with
  | nil => rfl
  | cons op ops ih =>
    rw [List.foldl_cons, ih]
    rfl

theorem foldl_place_congr (ops : List BankOp) {s u : State} (banks : u.banks = s.banks) (held : u.heldBack = s.heldBack) :
    (ops.foldl place u).banks = (ops.foldl place s).banks ∧ (ops.foldl place u).heldBack = (ops.foldl place s).heldBack := by
  induction ops generalizing s u with
  | nil => exact ⟨banks, held⟩
  | cons op ops ih =>
    obtain ⟨banks, held⟩ := place_congr op banks held
    exact ih banks held

/-- A change that places the requests of a list in some order. -/
structure Placed (s : State) (ops : List BankOp) (t : State) : Prop where
  some_order : ∃ order : List BankOp, order.Perm ops ∧ t.banks = (order.foldl place s).banks ∧
    t.heldBack = (order.foldl place s).heldBack
  frame : t = { s with banks := t.banks, heldBack := t.heldBack, arrivals := t.arrivals }

namespace Placed

theorem of_foldl {s : State} {ops order : List BankOp} (h : order.Perm ops) : Placed s ops (order.foldl place s) :=
  ⟨⟨order, h, rfl, rfl⟩, by rw [foldl_place_frame]⟩

theorem append {s t u : State} {ops more : List BankOp} (h : Placed s ops t) (h' : Placed t more u) :
    Placed s (ops ++ more) u := by
  obtain ⟨⟨o, perm, banks, held⟩, frame⟩ := h
  obtain ⟨⟨o', perm', banks', held'⟩, frame'⟩ := h'
  obtain ⟨same, same'⟩ := foldl_place_congr o' banks held
  refine ⟨⟨o ++ o', perm.append perm', ?_, ?_⟩, ?_⟩
  · rw [banks', same, List.foldl_append]
  · rw [held', same', List.foldl_append]
  · rw [frame', frame]

theorem perm {s t : State} {ops ops' : List BankOp} (h : Placed s ops t) (p : ops.Perm ops') : Placed s ops' t := by
  obtain ⟨⟨o, perm, banks, held⟩, frame⟩ := h
  exact ⟨⟨o, perm.trans p, banks, held⟩, frame⟩

theorem together (s : State) (ops : List BankOp) : Placed s ops (s.placeTogether ops) := by
  unfold placeTogether
  split
  · exact of_foldl (order := []) (.refl _)
  · next op => exact of_foldl (order := [op]) (.refl _)
  · next op more _ =>
    dsimp only
    split
    · have first_mem : (op :: more).getD (Config.arrivalPick s.arrivals % (op :: more).length) op ∈ op :: more := by
        have lt : Config.arrivalPick s.arrivals % (op :: more).length < (op :: more).length :=
          Nat.mod_lt _ (Nat.succ_pos _)
        rw [List.getD_eq_getElem _ _ lt]
        exact List.getElem_mem lt
      generalize (op :: more).getD (Config.arrivalPick s.arrivals % (op :: more).length) op = first at first_mem
      have counted : Placed s [] { s with arrivals := s.arrivals + 1 } := ⟨⟨[], .refl _, rfl, rfl⟩, rfl⟩
      exact (counted.append (of_foldl (order := first :: (op :: more).erase first) (.refl _))).perm
        (List.perm_cons_erase first_mem).symm
    · exact of_foldl (order := op :: more) (.refl _)

/-- The requests of one event, bank by bank. -/
theorem all (s : State) (ops : List BankOp) : Placed s ops (s.placeAll ops) := by
  have at_banks (bs : List BankId) (s : State) :
      Placed s (bs.flatMap (fun b => ops.filter (fun op => bankOf op.slot == b)))
        (bs.foldl (fun s b => s.placeTogether (ops.filter (fun op => bankOf op.slot == b))) s) := by
    induction bs generalizing s with
    | nil => exact of_foldl (order := []) (.refl _)
    | cons b bs ih =>
      rw [List.flatMap_cons]
      exact (together s _).append (ih _)
  refine (at_banks [0, 1, 2, 3] s).perm (List.perm_iff_count.2 fun op => ?_)
  have at_bank (b : BankId) :
      (ops.filter (fun op => bankOf op.slot == b)).count op = if bankOf op.slot = b then ops.count op else 0 := by
    split
    · next h => exact List.count_filter (beq_iff_eq.2 h)
    · next h => exact List.count_eq_zero.2 fun hm => h (by simpa using (List.mem_filter.1 hm).2)
  have banks : ∀ c : BankId, c = 0 ∨ c = 1 ∨ c = 2 ∨ c = 3 := by decide
  simp only [List.flatMap_cons, List.flatMap_nil, List.count_append, List.count_nil, at_bank]
  rcases banks (bankOf op.slot) with h | h | h | h <;> simp [h]

end Placed

/-! ### The end of a load (R100, R103) -/

theorem startLoad_of_empty {s : State} (h : s.loadQueue = []) : s.startLoad = (s, []) := by
  unfold startLoad
  split
  · next head => rw [h] at head; cases head
  · rfl

theorem startLoad_of_cons {s : State} {g : GroupId} {rest : List GroupId} (idle : s.engine = none)
    (h : s.loadQueue = g :: rest) :
    s.startLoad = (s.loadStarted g rest, ((s.group g).list.take 1).map transferOp) := by
  simp only [startLoad, idle, h]
  rfl

section End

variable {u : State} {g : GroupId}

theorem endLoad_of_empty (h : u.loadQueue = []) : u.endLoad g = (u.loadEnded g, u.heldReads g ++ []) := by
  rw [endLoad_eq, startLoad_of_empty (s := u.loadEnded g) h]

theorem endLoad_of_cons {h : GroupId} {rest : List GroupId} (hq : u.loadQueue = h :: rest) :
    u.endLoad g = ((u.loadEnded g).loadStarted h rest,
      u.heldReads g ++ (((u.loadEnded g).group h).list.take 1).map transferOp) := by
  rw [endLoad_eq, startLoad_of_cons (s := u.loadEnded g) rfl hq]

theorem queue_endLoad :
    (u.endLoad g).1.engine = u.loadQueue.head? ∧ (u.endLoad g).1.loadQueue = u.loadQueue.tail := by
  cases hq : u.loadQueue with
  | nil => rw [endLoad_of_empty hq]; exact ⟨rfl, hq⟩
  | cons h rest => rw [endLoad_of_cons hq]; exact ⟨rfl, rfl⟩

theorem load_endLoad_of_empty (h : u.loadQueue = []) : (u.endLoad g).1.load = u.load := by
  rw [endLoad_of_empty h]
  rfl

theorem group_endLoad_self (off : g ∉ u.loadQueue) :
    (u.endLoad g).1.group g = { u.group g with state := .empty, lastLoad := some u.loadRecord } := by
  have ended : (u.loadEnded g).group g = _ := (u.group_loadEnded g g).trans (if_pos rfl)
  cases hq : u.loadQueue with
  | nil => rw [endLoad_of_empty hq]; exact ended
  | cons h rest =>
    have differ : h ≠ g := fun e => off (by rw [hq, e]; exact List.mem_cons_self)
    rw [endLoad_of_cons hq, group_loadStarted, if_neg differ]
    exact ended

/-- The head of the queue starts its load. -/
theorem started_endLoad {h : GroupId} {rest : List GroupId} (off : g ∉ u.loadQueue) (hq : u.loadQueue = h :: rest) :
    (u.endLoad g).1.group h = { u.group h with state := .loading } ∧
      (u.endLoad g).1.load = { cycle := u.cycleNumber, transferred := 0, skipped := 0, firstSkipped := none } := by
  have differ : g ≠ h := fun e => off (by rw [hq, e]; exact List.mem_cons_self)
  rw [endLoad_of_cons hq]
  refine ⟨?_, rfl⟩
  rw [group_loadStarted, if_pos rfl, group_loadEnded, if_neg differ]

theorem group_endLoad_of_ne {h : GroupId} (hne : h ≠ g) (later : u.loadQueue.head? ≠ some h) :
    (u.endLoad g).1.group h = u.group h := by
  have ended : (u.loadEnded g).group h = u.group h := (u.group_loadEnded g h).trans (if_neg hne.symm)
  cases hq : u.loadQueue with
  | nil => rw [endLoad_of_empty hq]; exact ended
  | cons k rest =>
    have differ : k ≠ h := fun e => later (by rw [hq, e]; rfl)
    rw [endLoad_of_cons hq, group_loadStarted, if_neg differ]
    exact ended

theorem port_endLoad (n : Port) :
    (u.endLoad g).1.port n = ((u.port n).notifyLoad g (u.load.skipped != 0)).endHold g := by
  rw [← port_loadEnded, endLoad_frame]
  rfl

theorem requests_endLoad (off : g ∉ u.loadQueue) :
    (u.endLoad g).2 = u.heldReads g ++
      match u.loadQueue with
      | h :: _ => ((u.group h).list.take 1).map transferOp
      | [] => [] := by
  cases hq : u.loadQueue with
  | nil => rw [endLoad_of_empty hq]
  | cons h rest =>
    have differ : g ≠ h := fun e => off (by rw [hq, e]; exact List.mem_cons_self)
    rw [endLoad_of_cons hq, group_loadEnded, if_neg differ]

theorem heldReads_congr {s u : State} (ce : ∀ n, (u.port n).ce = (s.port n).ce) (g : GroupId) :
    u.heldReads g = s.heldReads g := by
  simp only [heldReads, ce]

end End

end State

theorem PortState.notifyLoad_endHold (p : PortState) (g : GroupId) (part : Bool) :
    (p.notifyLoad g part).endHold g = { p with
      loaded := if p.cfg.watch.getLsbD (g.val + 1) then p.loaded ||| BitVec.twoPow 64 (g.val + 1) else p.loaded
      sticky := p.sticky ||| (if p.cfg.watch.getLsbD (g.val + 1) && part then EventKind.loadPartial.bit else 0)
      ce := match p.ce with
        | .holding h => if h.group = g then .waiting (.access h.run h.slot) else .holding h
        | x => x } := by
  have engine (q : PortState) : q.endHold g = { q with ce := match q.ce with
      | .holding h => if h.group = g then .waiting (.access h.run h.slot) else .holding h
      | x => x } := by
    obtain ⟨_, _, _, _, _, _, _, _, _, ce, _, _, _⟩ := q
    cases ce with
    | holding h =>
      simp only [PortState.endHold]
      split <;> rfl
    | _ => rfl
  rw [engine]
  unfold PortState.notifyLoad
  rw [show g.num = g.val + 1 from rfl]
  cases p.cfg.watch.getLsbD (g.val + 1) <;> cases part <;> simp [PortState.raise, groupBit, GroupId.num]

theorem LoadRun.after_eq (l : LoadRun) (p : Nat) (skip : Bool) :
    l.after p skip =
      { cycle := l.cycle
        transferred := l.transferred + (if skip then 0 else 1)
        skipped := l.skipped + (if skip then 1 else 0)
        firstSkipped := if skip then some (l.firstSkipped.getD p) else l.firstSkipped } := by
  cases skip <;> rfl

/-- Settles O48: the words as for any transfer, then the end of the load. -/
theorem lastTransferEndsLoad : Obligations.LastTransferEndsLoad := by
  intro s b slot dropped g e hf engine list off wf skip transferred skipped firstSkipped partialLoad finding ecc reads first
  have frame := s.transferRead_frame slot
  generalize hr : s.transferRead slot = r at frame
  have engine' : r.engine = some g := by rw [frame]; exact engine
  have group (h : GroupId) : r.group h = s.group h := by rw [frame]; rfl
  have list' : (r.group g).list = [e] := (congrArg GroupRec.list (group g)).trans list
  have done := State.entryDone_of_cons list' slot skip
  have last : ((r.entryDone g slot skip).group g).list = [] := by rw [done, State.group_setGroup_self]
  have taken : r.transferred slot skip = (r.entryDone g slot skip).endLoad g := by
    rw [State.transferred_of_some engine', last]
  generalize hu : r.entryDone g slot skip = u at done last taken
  have part : (skipped != 0) = partialLoad := by
    rw [Bool.eq_iff_iff, bne_iff_ne, decide_eq_true_iff]
  have queue : u.loadQueue = s.loadQueue := by rw [done, frame]; rfl
  have load : u.load = { cycle := s.load.cycle, transferred := transferred, skipped := skipped, firstSkipped := firstSkipped } := by
    rw [done, ← LoadRun.after_eq, frame]
    rfl
  have port (n : Port) : u.port n = { s.port n with sticky := (s.port n).sticky ||| State.eccBit (s.word slot .staged) } := by
    rw [← s.port_transferRead, hr, done]
    rfl
  have other (h : GroupId) (hne : h ≠ g) : u.group h = s.group h := by
    rw [done]
    exact (State.group_setGroup_of_ne _ _ _ _ hne.symm).trans (group h)
  have self : u.group g = { s.group g with list := [] } := by
    rw [done, State.group_setGroup_self, group]
  have off' : g ∉ u.loadQueue := queue ▸ off
  have result : exec (.transferCompletion b) s = .next (((u.endLoad g).1.grantNext b).placeAll (u.endLoad g).2) := by
    rw [exec_transferCompletion hf, State.transferDone_eq, hr]
    show Host.Outcome.next (((r.transferred slot skip).1.grantNext b).placeAll (r.transferred slot skip).2) = _
    rw [taken]
  obtain ⟨⟨order, perm, banks, held⟩, placed⟩ := State.Placed.all ((u.endLoad g).1.grantNext b) (u.endLoad g).2
  generalize ht : ((u.endLoad g).1.grantNext b).placeAll (u.endLoad g).2 = t at result banks held placed
  have ended : t = { (u.endLoad g).1 with banks := t.banks, heldBack := t.heldBack, arrivals := t.arrivals } := by
    rw [placed]
    rfl
  have word (i : Nat) (w : WordName) : t.word i w = (s.transferRead slot).word i w := by
    rw [ended, State.endLoad_frame, hr, done]
    rfl
  refine ⟨t, result, ?taken, ?left, ?staged, ?words, ?log, ?free, ?group, ?engine, ?queue, ?next, ?same, ?others, ?ports,
    ?requests, ?frame⟩
  case taken => exact fun v hv => by rw [word, State.word_transferRead_live wf, hv]
  case left => exact fun hn => by rw [word, State.word_transferRead_live wf, hn]
  case staged => exact (word _ _).trans (State.word_transferRead_staged wf)
  case words => exact fun i w apart => (word i w).trans (State.word_transferRead_of_ne wf apart)
  case log =>
    refine Eq.trans ?_ (s.log_transferRead slot)
    rw [ended, State.endLoad_frame, hr, done]
    rfl
  case free =>
    rw [ended, State.endLoad_frame, done, frame]
    rfl
  case group =>
    rw [ended]
    refine (State.group_endLoad_self off').trans ?_
    rw [self, State.loadRecord, load, part]
  case engine =>
    rw [ended, ← queue]
    exact State.queue_endLoad.1
  case queue =>
    rw [ended, ← queue]
    exact State.queue_endLoad.2
  case next =>
    intro h rest hq
    have hne : h ≠ g := fun e => off (by rw [hq, e]; exact List.mem_cons_self)
    obtain ⟨group_h, load_h⟩ := State.started_endLoad off' (queue.trans hq)
    rw [ended]
    refine ⟨group_h.trans (by rw [other h hne]), load_h.trans ?_⟩
    rw [done, frame]
    rfl
  case same =>
    intro hq
    rw [ended]
    exact (State.load_endLoad_of_empty (queue.trans hq)).trans load
  case others =>
    intro h hne later
    rw [ended]
    exact (State.group_endLoad_of_ne hne (queue ▸ later)).trans (other h hne)
  case ports =>
    intro n watches
    rw [ended]
    refine (State.port_endLoad n).trans ?_
    rw [PortState.notifyLoad_endHold, port, load, part]
    rfl
  case requests =>
    have asked : (u.endLoad g).2 = reads ++ first := by
      rw [State.requests_endLoad off', State.heldReads_congr (s := s) (fun n => by rw [port])]
      refine congrArg₂ (· ++ ·) rfl ?_
      show _ = match s.loadQueue with
        | h :: _ => ((s.group h).list.take 1).map transferOp
        | [] => []
      rw [queue]
      cases hq : s.loadQueue with
      | nil => rfl
      | cons h rest =>
        have hne : h ≠ g := fun e => off (by rw [hq, e]; exact List.mem_cons_self)
        simp only [other h hne]
    have same_banks : (u.endLoad g).1.banks = s.banks := by
      rw [State.endLoad_frame, done, frame]
      rfl
    have same_dev : (u.endLoad g).1.dev = s.dev := by
      rw [State.endLoad_frame, done, frame]
      rfl
    have same_held : ((u.endLoad g).1.grantNext b).heldBack = (s.grantNext b).heldBack := by
      rw [State.endLoad_frame, done, frame]
      rfl
    obtain ⟨order_banks, order_held⟩ :=
      State.foldl_place_congr order (State.grantNext_congr same_banks same_dev b) same_held
    exact ⟨order, asked ▸ perm, banks.trans order_banks, held.trans order_held⟩
  case frame =>
    rw [ended, State.endLoad_frame, done, frame]
    rfl

end Sys2Proof.Machine
end

section
/-! Scrubs and fills (R10, R13, R14, R22, R109, R111). -/

namespace Sys2Proof.Machine

/-! ### SCRUB_COMPLETION -/

namespace State

/-- The words of a scrubbed slot repaired, their findings logged and raised: a scrub before the patrol moves on. -/
def scrubRead (s : State) (slot : Nat) : State :=
  (s.repairWords slot slotWords).takeFindings (s.findings .scrub slot slotWords)

theorem scrubDone_eq (s : State) (b : BankId) (slot : Nat) :
    s.scrubDone b slot = ((s.scrubRead slot).patrolNext slot).grantNext b := rfl

theorem scrubRead_frame (s : State) (slot : Nat) :
    s.scrubRead slot = { s with
      store := (s.scrubRead slot).store, log := (s.scrubRead slot).log, ports := (s.scrubRead slot).ports } := by
  obtain ⟨st, repaired⟩ := repairWords_eq s slot slotWords
  rw [scrubRead, takeFindings_frame, repaired]

theorem word_scrubRead {s : State} (wf : Store.wf s.store = true) (slot i : Nat) (w : WordName) :
    (s.scrubRead slot).word i w = if i = slot then (s.word i w).repaired else s.word i w := by
  have listed : w ∈ slotWords := by cases w <;> decide
  rw [scrubRead, takeFindings_word, word_repairWords _ _ _ _ _ wf]
  simp only [listed, and_true, @eq_comm _ slot i]

theorem log_scrubRead (s : State) (slot : Nat) :
    (s.scrubRead slot).log = slotWords.foldl (s.logged .scrub slot) s.log := by
  obtain ⟨st, repaired⟩ := repairWords_eq s slot slotWords
  rw [scrubRead, log_takeFindings_findings, repaired]

theorem port_scrubRead (s : State) (slot : Nat) (n : Port) :
    (s.scrubRead slot).port n = { s.port n with
      sticky := (s.port n).sticky ||| (if slotWords.any (s.foundAt slot false) then EventKind.eccCorrected.bit else 0)
        ||| (if slotWords.any (s.foundAt slot true) then EventKind.eccUncorrectable.bit else 0) } := by
  obtain ⟨st, repaired⟩ := repairWords_eq s slot slotWords
  rw [scrubRead, port_takeFindings_findings, repaired]
  rfl

theorem patrolNext_frame (s : State) (slot : Nat) :
    s.patrolNext slot =
      { s with patrol := if slot < 4095 then slot + 1 else 0, ports := (s.patrolNext slot).ports } := by
  unfold patrolNext
  split <;> rfl

theorem port_patrolNext (s : State) (slot : Nat) (n : Port) :
    (s.patrolNext slot).port n = { s.port n with
      sticky := (s.port n).sticky ||| (if slot < 4095 then 0 else EventKind.scrubPass.bit) } := by
  unfold patrolNext
  split
  · simp [port]
  · exact port_raiseAll _ _ _

end State

/-! ### FILL_COMPLETION -/

theorem Bank.phase_grantNext_of_waiting_nil (k : Nat) {b : Bank} (h : b.waiting = []) :
    (b.grantNext k).phase = .idle := by
  rw [Bank.grantNext_of_choice_none (Bank.choice_of_waiting_nil k h)]

namespace State

theorem ready_iff (s : State) : s.ready = true ↔ ∀ b, (s.bank b).phase ≠ .init := by
  have banks : ∀ c : BankId, c = 0 ∨ c = 1 ∨ c = 2 ∨ c = 3 := by decide
  simp only [ready, Bool.and_eq_true, bne_iff_ne, and_assoc]
  refine ⟨fun ⟨h0, h1, h2, h3⟩ b => ?_, fun h => ⟨h 0, h 1, h 2, h 3⟩⟩
  rcases banks b with rfl | rfl | rfl | rfl
  · exact h0
  · exact h1
  · exact h2
  · exact h3

theorem not_ready_of_init {s : State} {b : BankId} (h : (s.bank b).phase = .init) : s.ready = false :=
  Bool.eq_false_iff.2 fun ready => s.ready_iff.1 ready b h

/-- The row written and the position advanced. -/
def rowFilled (s : State) (b : BankId) : State :=
  (s.fillSlot (4 * (s.bank b).fillRow + b.val)).updBank b (fun x => { x with fillRow := (s.bank b).fillRow + 1 })

theorem fillDone_eq (s : State) (b : BankId) :
    s.fillDone b =
      if (s.bank b).fillRow < 1023 then s.rowFilled b else ((s.rowFilled b).grantNext b).startPatrol := rfl

theorem word_rowFilled {s : State} (wf : Store.wf s.store = true) (b : BankId) (i : Nat) (w : WordName) :
    (s.rowFilled b).word i w = if i = 4 * (s.bank b).fillRow + b.val then .clean 0 else s.word i w := by
  refine (word_fillSlot s _ wf i w).trans ?_
  simp only [@eq_comm _ _ i]

theorem bank_rowFilled_self (s : State) (b : BankId) :
    (s.rowFilled b).bank b = { s.bank b with fillRow := (s.bank b).fillRow + 1 } :=
  (bank_updBank _ _ _ _).trans (if_pos rfl)

theorem bank_rowFilled_of_ne (s : State) {b c : BankId} (h : c ≠ b) : (s.rowFilled b).bank c = s.bank c :=
  (bank_updBank _ _ _ _).trans (if_neg h.symm)

theorem startPatrol_frame (s : State) :
    s.startPatrol = { s with patrol := s.startPatrol.patrol, scrubTimer := s.startPatrol.scrubTimer } := by
  unfold startPatrol
  split <;> rfl

end State

/-- Settles O49: the slot's words, the patrol and the log; the row, the bank and the patrol's start. -/
theorem scrubAndFillCompletions : Obligations.ScrubAndFillCompletions := by
  refine ⟨fun s b slot dropped hf wf => ?_, fun s b high init wf => ?_⟩
  · intro words found
    have frame := s.scrubRead_frame slot
    have patrolled := (s.scrubRead slot).patrolNext_frame slot
    refine ⟨_, exec_scrubCompletion hf, fun i w => ?_, ?_, ?_, fun n => ?_, ?_, ?_⟩ <;> rw [State.scrubDone_eq]
    · show ((s.scrubRead slot).patrolNext slot).word i w = _
      rw [patrolled]
      refine (State.word_scrubRead wf slot i w).trans ?_
      rw [Stored.repaired_eq] <;> rfl
    · show ((s.scrubRead slot).patrolNext slot).patrol = _
      rw [patrolled]
    · show ((s.scrubRead slot).patrolNext slot).log = _
      rw [patrolled]
      exact s.log_scrubRead slot
    · show ((s.scrubRead slot).patrolNext slot).port n = _
      rw [State.port_patrolNext, State.port_scrubRead]
      rfl
    · refine State.grantNext_congr ?_ ?_ b <;> rw [patrolled, frame]
    · rw [patrolled, frame]
      rfl
  · intro row
    have left : ∀ x : State, x.bank b = Bank.grantNext s.dev.guarantee.toNat { s.bank b with fillRow := row + 1 } →
        (x.bank b).phase ≠ .init ∧ ((s.bank b).waiting = [] → (x.bank b).phase = .idle) := fun x hx => by
      rw [hx]
      exact ⟨(Bank.grantNext_phase _ _).1, fun none_waits => Bank.phase_grantNext_of_waiting_nil _ none_waits⟩
    by_cases more : row < 1023
    · have filled : s.fillDone b = s.rowFilled b := (s.fillDone_eq b).trans (if_pos more)
      have still : ((s.rowFilled b).bank b).phase = .init := by rw [State.bank_rowFilled_self]; exact init
      refine ⟨s.rowFilled b, (exec_fillCompletion high init).trans (by rw [filled]), State.word_rowFilled wf b,
        fun c hc => s.bank_rowFilled_of_ne hc, (s.bank_rowFilled_self b).trans (if_pos more).symm,
        fun h => absurd more (by omega), fun _ => ⟨State.not_ready_of_init still, rfl, rfl⟩,
        fun h => absurd more (by omega), rfl⟩
    · have filled : s.fillDone b = ((s.rowFilled b).grantNext b).startPatrol := (s.fillDone_eq b).trans (if_neg more)
      generalize hu : (s.rowFilled b).grantNext b = u at filled
      have self : u.bank b = Bank.grantNext s.dev.guarantee.toNat { s.bank b with fillRow := row + 1 } := by
        rw [← hu, State.bank_grantNext, if_pos rfl, State.bank_rowFilled_self]
        rfl
      have other (c : BankId) (hc : c ≠ b) : u.bank c = s.bank c := by
        rw [← hu, State.bank_grantNext, if_neg hc.symm, State.bank_rowFilled_of_ne s hc]
      have frame := u.startPatrol_frame
      have bank (c : BankId) : u.startPatrol.bank c = u.bank c := by rw [frame]; rfl
      have ready : u.startPatrol.ready = u.ready := by rw [frame]; rfl
      refine ⟨u.startPatrol, (exec_fillCompletion high init).trans (by rw [filled]), fun i w => ?_,
        fun c hc => (bank c).trans (other c hc), ((bank b).trans self).trans (if_neg more).symm,
        fun _ => left _ ((bank b).trans self), fun unready => ?_, fun _ all => ?_, ?_⟩
      · refine Eq.trans ?_ (State.word_rowFilled wf b i w)
        rw [frame, ← hu]
        rfl
      · obtain ⟨c, hc, filling⟩ := unready.resolve_left more
        have not_yet : u.ready = false := State.not_ready_of_init (b := c) ((congrArg Bank.phase (other c hc)).trans filling)
        have same : u.startPatrol = u := if_neg (by rw [not_yet]; exact Bool.false_ne_true)
        rw [same, ← hu]
        exact ⟨hu ▸ not_yet, rfl, rfl⟩
      · have now : u.ready = true := u.ready_iff.2 fun c => by
          by_cases hc : c = b
          · rw [hc]; exact (left u self).1
          · rw [other c hc]; exact all c hc
        have started : u.startPatrol = { u with patrol := 0, scrubTimer := u.freshScrubTimer } := if_pos now
        rw [started]
        refine ⟨now, rfl, ?_⟩
        rw [← hu]
        rfl
      · rw [frame, ← hu]
        rfl

end Sys2Proof.Machine
end

section
/-! R18: a SETPOINT's LIVE value waits for its transfer. What each command leaves of the words of the store. -/

namespace Sys2Proof.Machine

/-- The completions of bank operations. -/
def isCompletion : Instr → Bool
  | .readCompletion _ | .stageCompletion _ | .postCompletion _ | .descReadCompletion _ | .descWriteCompletion _
  | .mapFillCompletion _ | .mapReadCompletion _ | .mapWriteCompletion _ | .transferCompletion _ | .scrubCompletion _
  | .fillCompletion _ => true
  | _ => false

/-- Only a disturbance and the completions change the store. -/
theorem store_exec {c : Instr} {s t : State} (h : exec c s = .next t) (undisturbed : ∀ i w, c ≠ .disturbance i w)
    (event : isCompletion c = false) : t.store = s.store := by
  cases hf : frameOf c with
  | some nf =>
    obtain ⟨n, f⟩ := nf
    obtain rfl | rfl := exec_frame_cases hf h
    · rfl
    · rw [State.goodFrame_eq]
      exact (serve_quiets _ n).store
  | none =>
    cases c with
    | disturbance i w => exact absurd rfl (undisturbed i w)
    | resetLineLow | coldReset => cases h; rfl
    | startBit | gapExpiry | lineReturnHigh =>
      simp only [exec, execStartBit, execGapExpiry, execLineReturnHigh] at h
      split at h <;> cases h <;> rfl
    | characterArrival =>
      simp only [exec, execCharacterArrival] at h
      split at h
      · split at h
        · cases h; exact (takeChar_quiets _ _ _).store
        · cases h; rfl
      · cases h; rfl
    | lastByteLeaves =>
      simp only [exec, execLastByteLeaves] at h
      split at h
      · cases h; rfl
      · split at h
        · cases h; rfl
        · cases h
          exact Quiets.store ((bufferSent_quiets _ _ _).trans ((resetAfter_quiets _ _ _ _).trans (serve_quiets _ _)))
    | loadEdge | cycleTimerExpiry =>
      simp only [exec, execLoadEdge, execCycleTimerExpiry] at h
      split at h
      · cases h; exact (cycleEvent_quiets _).store
      · cases h; rfl
    | holdTimerExpiry =>
      simp only [exec, execHoldTimerExpiry] at h
      split at h
      · cases h; rfl
      · split at h
        · next hold holding =>
          split at h
          · cases h; exact (holdExpires_quiets _ _ _ holding).store
          · cases h; rfl
        · cases h; rfl
    | scrubTimerExpiry =>
      simp only [exec, execScrubTimerExpiry] at h
      split at h
      · cases h; exact (slotChoice_quiets _).store
      · cases h; rfl
    | readCompletion | stageCompletion | postCompletion | descReadCompletion | descWriteCompletion | mapFillCompletion
    | mapReadCompletion | mapWriteCompletion | transferCompletion | scrubCompletion | fillCompletion => cases event
    | _ => cases hf

namespace State

theorem word_of_store {s t : State} (h : t.store = s.store) (i : Nat) (w : WordName) : t.word i w = s.word i w := by
  simp only [word, h]

/-- The end of a completion leaves what every word yields. -/
theorem yield_endCompletion (z : State) {s : State} (wf : Store.wf s.store = true) (b : BankId) (src : Requester)
    (slot : Nat) (reads : List WordName) (i : Nat) (w : WordName) :
    ((z.endCompletion s b src slot reads).word i w).yield = (s.word i w).yield := by
  have read : (z.endCompletion s b src slot reads).word i w = (s.repairOnAccess slot reads).word i w :=
    takeFindings_word _ _ _ _
  rw [read, word_repairOnAccess slot wf]
  split
  · exact yield_repaired _
  · rfl

section Handed

variable {z s : State} {n : Port} {slot : Nat}

theorem store_settled (s : State) (n : Port) (r : PointRun) (x : PointResult) :
    ((s.settlePoint n r x).serve n).store = s.store :=
  Quiets.store ((settlePoint_quiets s n r x).trans (serve_quiets _ _))

theorem store_readHanded (z s : State) (n : Port) (slot : Nat) (plan : ReadPlan) :
    (z.readHanded s n slot plan).store = s.store := by
  unfold readHanded
  split
  · cases plan with
    | hold g => rfl
    | refuse | word => exact store_settled _ _ _ _
  · rfl

theorem store_writeHanded (z s : State) (n : Port) (slot : Nat) (st : PointStatus) (reads : List WordName) :
    (z.writeHanded s n slot st reads).store = s.store := (writeHanded_quiets z s n slot st reads).store

theorem store_release (s : State) (r : Requester) : (s.release r).store = s.store := by rw [release_frame]

theorem store_useEntry (s : State) (n : Port) (r : PointRun) (e : MapEntry) : (s.useEntry n r e).store = s.store := by
  unfold useEntry
  split
  · exact (goOn_quiets _ _ _).store
  · split
    · rfl
    · exact (settlePoint_quiets _ _ _ _).store

theorem store_insertFill (s : State) (n : Port) (l : Nat) (inserts : Bool) (e : MapEntry) :
    (s.insertFill n l inserts e).store = s.store := by
  unfold insertFill
  split <;> rfl

theorem store_fillHanded (s : State) (n : Port) (l : Nat) (inserts : Bool) (x : Stored) :
    (s.fillHanded n l inserts x).store = s.store := by
  unfold fillHanded
  split
  · dsimp only
    split
    · exact store_settled _ _ _ _
    · split
      · exact store_settled _ _ _ _
      · exact (serve_quiets _ _).store.trans ((store_useEntry _ _ _ _).trans (store_insertFill _ _ _ _ _))
  · rfl

theorem store_singleHanded (s : State) (n : Port) (dropped : Bool) (st : FrameStatus) (body : List Byte) :
    (s.singleHanded n dropped st body).store = s.store := (singleHanded_quiets s n dropped st body).store

end Handed

/-! ### Each completion, and what the words of the store yield after it -/

section Yields

variable {s : State} (wf : Store.wf s.store = true)

include wf

theorem yield_readDone (b : BankId) (n : Port) (slot : Nat) (prefer dropped : Bool) (i : Nat) (w : WordName) :
    ((s.readDone b n slot prefer dropped).word i w).yield = (s.word i w).yield := by
  have ended := yield_endCompletion s wf b (.ce n) slot (s.planRead slot prefer).reads i w
  unfold readDone
  split
  · rw [word_of_store (store_release _ _), ended]
  · rw [word_of_store (store_readHanded _ _ _ _ _), ended]

theorem yield_descReadDone (b : BankId) (n : Port) (slot : Nat) (dropped : Bool) (i : Nat) (w : WordName) :
    ((s.descReadDone b n slot dropped).word i w).yield = (s.word i w).yield := by
  rw [descReadDone, word_of_store (store_singleHanded _ _ _ _ _), yield_endCompletion s wf]

theorem yield_mapReadDone (b : BankId) (n : Port) (slot : Nat) (dropped : Bool) (i : Nat) (w : WordName) :
    ((s.mapReadDone b n slot dropped).word i w).yield = (s.word i w).yield := by
  rw [mapReadDone, word_of_store (store_singleHanded _ _ _ _ _), yield_endCompletion s wf]

theorem yield_mapFillDone (b : BankId) (n : Port) (slot l : Nat) (inserts dropped : Bool) (i : Nat) (w : WordName) :
    ((s.mapFillDone b n slot l inserts dropped).word i w).yield = (s.word i w).yield := by
  have ended := yield_endCompletion s wf b (.ce n) slot [.live] i w
  unfold mapFillDone
  split
  · rw [word_of_store (store_release _ _), ended]
  · rw [word_of_store (store_fillHanded _ _ _ _ _), ended]

theorem yield_scrubDone (b : BankId) (slot i : Nat) (w : WordName) :
    ((s.scrubDone b slot).word i w).yield = (s.word i w).yield := by
  have kept : (s.scrubDone b slot).word i w = (s.scrubRead slot).word i w :=
    word_of_store (by rw [scrubDone_eq, patrolNext_frame]; rfl) i w
  rw [kept, word_scrubRead wf]
  split
  · exact yield_repaired _
  · rfl

theorem word_fillDone_of_ne (b : BankId) {i : Nat} (h : i ≠ 4 * (s.bank b).fillRow + b.val) (w : WordName) :
    (s.fillDone b).word i w = s.word i w := by
  have filled := (word_rowFilled wf b i w).trans (if_neg h)
  rw [fillDone_eq]
  split
  · exact filled
  · rw [startPatrol_frame]
    exact filled

theorem word_mapWriteDone_of_ne (b : BankId) (n : Port) {slot : Nat} (t : Port) (l : Nat) (e : Value) (dropped : Bool)
    {i : Nat} (h : i ≠ slot) (w : WordName) : (s.mapWriteDone b n slot t l e dropped).word i w = s.word i w := by
  rw [mapWriteDone, word_of_store (store_singleHanded _ _ _ _ _)]
  exact (word_writeWord s slot i .live w e wf).trans (if_neg fun same => h same.1.symm)

theorem word_transferDone_of_ne (b : BankId) {slot i : Nat} (h : i ≠ slot) (w : WordName) :
    (s.transferDone b slot).word i w = s.word i w := by
  refine (word_of_store ?_ i w).trans (word_transferRead_of_ne wf (.inl h))
  rw [transferDone_eq, (Placed.all _ _).frame, transferred_frame]
  rfl

theorem yield_writeDone (z : State) (b : BankId) (n : Port) (slot : Nat) (dropped : Bool) (st : PointStatus)
    (reads : List WordName) (i : Nat) (w : WordName) :
    ((z.writeDone b n slot dropped ⟨st, reads, s⟩).word i w).yield = (s.word i w).yield := by
  have ended := yield_endCompletion z wf b (.ce n) slot reads i w
  unfold writeDone
  split
  · rw [word_of_store (store_release _ _), ended]
  · rw [word_of_store (store_writeHanded _ _ _ _ _ _), ended]

end Yields

theorem word_live_descWriteDone (s : State) (b : BankId) (n : Port) (slot : Nat) (desc low high : Value) (dropped : Bool)
    (i : Nat) : (s.descWriteDone b n slot desc low high dropped).word i .live = s.word i .live := by
  have record (u : State) : (u.writeRecord slot desc low high).word i .live = u.word i .live := by
    rw [writeRecord, word_writeWord_of_ne _ _ _ _ _ _ (by decide), word_writeWord_of_ne _ _ _ _ _ _ (by decide),
      word_writeWord_of_ne _ _ _ _ _ _ (by decide)]
  rw [descWriteDone, word_of_store (store_singleHanded _ _ _ _ _)]
  show (s.descWriteEffect slot desc low high).2.word i .live = _
  unfold descWriteEffect
  split
  · exact record s
  · split
    · rfl
    · rw [record, removeStage_frame]
      rfl

/-- A STAGE writes STAGED alone. -/
theorem stageEffect_live {s : State} (wf : Store.wf s.store = true) (n : Port) (slot : Nat) (v : Value)
    (mask : Option Value) (i : Nat) :
    Store.wf (s.stageEffect n slot v mask).state.store = true ∧
      (s.stageEffect n slot v mask).state.word i .live = s.word i .live := by
  have staged {u : State} (store : u.store = s.store) (y : Value) :
      Store.wf (u.writeWord slot .staged y).store = true ∧ (u.writeWord slot .staged y).word i .live = s.word i .live :=
    ⟨wf_writeWord _ _ _ _ (store ▸ wf), (word_writeWord_of_ne _ _ _ _ _ _ (by decide)).trans (word_of_store store _ _)⟩
  unfold stageEffect
  split
  · exact ⟨wf, rfl⟩
  · dsimp only
    split
    · exact ⟨wf, rfl⟩
    · split
      · exact ⟨wf, rfl⟩
      · exact ⟨wf, rfl⟩
      · exact staged (by rw [restage_frame]) _
      · exact staged (by rw [newStage_frame]) _

/-- A POST writes LIVE of its slot, which is no SETPOINT. -/
theorem postEffect_live {s : State} (wf : Store.wf s.store = true) (n : Port) (slot : Nat) (v : Value)
    (mask : Option Value) {i : Nat} (h : i = slot → ∃ d g, s.readDesc slot = .fields d ∧ d.kind = .setpoint g) :
    Store.wf (s.postEffect n slot v mask).state.store = true ∧
      (s.postEffect n slot v mask).state.word i .live = s.word i .live := by
  unfold postEffect
  split
  · exact ⟨wf, rfl⟩
  · next policy gate =>
    dsimp only
    split
    · exact ⟨wf, rfl⟩
    · next y clamped _ =>
      refine ⟨wf_writeWord _ _ _ _ wf, (word_writeWord s slot i .live .live y wf).trans (if_neg fun same => ?_)⟩
      obtain ⟨d, g, fields, kind⟩ := h same.1.symm
      rw [postGate_of_fields fields, kind] at gate
      cases gate

end State

/-- Settles O59: a POST is refused on a SETPOINT, and no other operation but the excluded ones writes its LIVE. -/
theorem setpointLiveIsTransferredOnly : Obligations.SetpointLiveIsTransferredOnly := by
  intro c s t slot v d g wf desc decoded kind undisturbed excluded unfilled h
  have fields := State.readDesc_of_some desc decoded
  cases event : isCompletion c with
  | false => rw [State.word_of_store (store_exec h undisturbed event)]
  | true =>
    cases c with
    | readCompletion b =>
      simp only [exec, execReadCompletion] at h
      split at h
      · rw [← unlessUndefined_next h, State.yield_readDone wf]
      · cases h; rfl
    | stageCompletion b =>
      simp only [exec, execStageCompletion] at h
      split at h
      · next n i v mask dropped _ =>
        obtain ⟨wf', live⟩ := State.stageEffect_live wf n i v mask slot
        rw [← unlessUndefined_next h, State.yield_writeDone wf', live]
      · cases h; rfl
    | postCompletion b =>
      simp only [exec, execPostCompletion] at h
      split at h
      · next n i v mask dropped _ =>
        obtain ⟨wf', live⟩ := State.postEffect_live wf n i v mask (i := slot) fun same => ⟨d, g, same ▸ fields, kind⟩
        rw [← unlessUndefined_next h, State.yield_writeDone wf', live]
      · cases h; rfl
    | descReadCompletion b =>
      simp only [exec, execDescReadCompletion] at h
      split at h <;> cases h
      · exact State.yield_descReadDone wf _ _ _ _ _ _
      · rfl
    | descWriteCompletion b =>
      simp only [exec, execDescWriteCompletion] at h
      split at h <;> cases h
      · rw [State.word_live_descWriteDone]
      · rfl
    | mapFillCompletion b =>
      simp only [exec, execMapFillCompletion] at h
      split at h <;> cases h
      · exact State.yield_mapFillDone wf _ _ _ _ _ _ _ _
      · rfl
    | mapReadCompletion b =>
      simp only [exec, execMapReadCompletion] at h
      split at h <;> cases h
      · exact State.yield_mapReadDone wf _ _ _ _ _ _
      · rfl
    | mapWriteCompletion b =>
      simp only [exec, execMapWriteCompletion] at h
      split at h <;> cases h
      · next n i target page e dropped hf =>
        have elsewhere : slot ≠ i := fun same => (excluded b _ hf same.symm).2 _ _ _ rfl
        rw [State.word_mapWriteDone_of_ne wf _ _ _ _ _ _ elsewhere]
      · rfl
    | transferCompletion b =>
      simp only [exec, execTransferCompletion] at h
      split at h <;> cases h
      · next i dropped hf =>
        have elsewhere : slot ≠ i := fun same => (excluded b _ hf same.symm).1 rfl
        rw [State.word_transferDone_of_ne wf _ elsewhere]
      · rfl
    | scrubCompletion b =>
      simp only [exec, execScrubCompletion] at h
      split at h <;> cases h
      · exact State.yield_scrubDone wf _ _ _ _
      · rfl
    | fillCompletion b =>
      simp only [exec, execFillCompletion] at h
      split at h
      · cases h; rfl
      · split at h <;> cases h
        · next init => rw [State.word_fillDone_of_ne wf b (unfilled b init)]
        · rfl
    | _ => cases event

end Sys2Proof.Machine
end
